-- ==== Sys2Proof/Word.lean ====
section
/-! DEFINITION. The words on the block's wires (spec 10_state.md R40, 30_encoding.md R70, R74, R75):
a command word, its operand byte, a pin-operation code, a slot code, and the inputs of one cycle.
A single bit is a Bool: logic LOW is `false`, logic HIGH is `true` on every signal (00_scope.md R13). -/

namespace Sys2Proof

/-- The operand of a command and the contents of `TXD` (R70, R22). -/
abbrev Byte := BitVec 8

/-- The command word `CMD[10:0]` (R70). -/
abbrev CommandWord := BitVec 11

/-- The code `pin_op[1:0]` (R74). -/
abbrev PinCode := BitVec 2

/-- The 4-bit code of `SLOT` (R75). -/
abbrev SlotCode := BitVec 4

/-- The inputs `I(t)` of one cycle, the input ports of R40 less the clock (R135). -/
structure Inputs where
  /-- `rst`: synchronous reset, active 1 (R160). -/
  rst : Bool
  /-- `cmd_valid`: the host presents a command in this cycle. -/
  cmdValid : Bool
  /-- `cmd`: the command word presented. -/
  cmd : CommandWord
  /-- `irq`: some interrupt source of the host requests service in this cycle (R144). -/
  irq : Bool
  /-- `ie_we`: the host writes `IE` in this cycle (R148). -/
  ieWe : Bool
  /-- `ie_d`: the value the host writes. -/
  ieD : Bool
deriving DecidableEq, Repr, Inhabited

/-- A cycle in which the host does nothing: no reset, no command, no request, no `IE` write. -/
def Inputs.quiet : Inputs :=
  { rst := false, cmdValid := false, cmd := 0, irq := false, ieWe := false, ieD := false }

/-- A cycle in which the host presents the word `w` and does nothing else (R81). -/
def Inputs.present (w : CommandWord) : Inputs := { Inputs.quiet with cmdValid := true, cmd := w }

end Sys2Proof
end

