-- ==== Sys2Proof/Syntax.lean ====
section
/-! DEFINITION. The instructions of spec/opcode_table.json: the host commands of format H (30_encoding.md R71) and
the pin operations of format P (R74). Operand bits that a command ignores (R72) are kept, so that no bit of a word
is lost between the word and its instruction (log 14). -/

namespace Sys2Proof

/-- The two formats of the opcode table (R70, R74). -/
inductive Format where
  /-- an 11-bit command word on the port `cmd` -/
  | h
  /-- a 2-bit code on the internal interface `pin_op` -/
  | p
deriving DecidableEq, Repr

/-- The four pin operations (R74). -/
inductive PinOp where
  | hold
  | setLow
  | setHigh
  | init
deriving DecidableEq, Repr

/-- The three commands that start a frame, the TX class (R120). -/
inductive TxOp where
  | tx
  | txGuarded
  | txAuto
deriving DecidableEq, Repr

/-- One constructor for each row of spec/opcode_table.json. -/
inductive Instr where
  /-- `RESERVED_0`, op 0b000 (R73); the operand is ignored. -/
  | reserved0 (ignored : Byte)
  /-- `INIT`, op 0b001 (R94); the operand is ignored. -/
  | init (ignored : Byte)
  /-- `TX b`, op 0b010 (R100). -/
  | tx (b : Byte)
  /-- `TX_GUARDED b`, op 0b011 (R121). -/
  | txGuarded (b : Byte)
  /-- `TX_AUTO b`, op 0b100 (R122). -/
  | txAuto (b : Byte)
  /-- `SET_GUARD v`, op 0b101 (R123): `v` is `CMD[0]`; `CMD[7:1]` is ignored. -/
  | setGuard (v : Bool) (ignored : BitVec 7)
  /-- `RESERVED_6`, op 0b110 (R73); the operand is ignored. -/
  | reserved6 (ignored : Byte)
  /-- `RESERVED_7`, op 0b111 (R73); the operand is ignored. -/
  | reserved7 (ignored : Byte)
  /-- `PIN_HOLD`, code 0b00 (R90). -/
  | pinHold
  /-- `PIN_SET_LOW`, code 0b01 (R91). -/
  | pinSetLow
  /-- `PIN_SET_HIGH`, code 0b10 (R92). -/
  | pinSetHigh
  /-- `PIN_INIT`, code 0b11 (R93). -/
  | pinInit
deriving DecidableEq, Repr

/-- The words of an instruction: a command word, or a pin-operation code. Every instruction has exactly one (R70). -/
inductive Encoded where
  | command (w : CommandWord)
  | pinOp (c : PinCode)
deriving DecidableEq, Repr

/-- The instruction of the table that a pin operation is. -/
def PinOp.toInstr : PinOp → Instr
  | .hold => .pinHold
  | .setLow => .pinSetLow
  | .setHigh => .pinSetHigh
  | .init => .pinInit

/-- The command of the TX class with operand `b`. -/
def TxOp.toInstr : TxOp → Byte → Instr
  | .tx, b => .tx b
  | .txGuarded, b => .txGuarded b
  | .txAuto, b => .txAuto b

/-- The opcode and the operand of a command of the TX class; nothing for any other instruction. -/
def Instr.txClass : Instr → Option (TxOp × Byte)
  | .tx b => some (.tx, b)
  | .txGuarded b => some (.txGuarded, b)
  | .txAuto b => some (.txAuto, b)
  | .reserved0 _ => none
  | .init _ => none
  | .setGuard _ _ => none
  | .reserved6 _ => none
  | .reserved7 _ => none
  | .pinHold => none
  | .pinSetLow => none
  | .pinSetHigh => none
  | .pinInit => none

/-- The format of an instruction's row. -/
def Instr.format : Instr → Format
  | .reserved0 _ => .h
  | .init _ => .h
  | .tx _ => .h
  | .txGuarded _ => .h
  | .txAuto _ => .h
  | .setGuard _ _ => .h
  | .reserved6 _ => .h
  | .reserved7 _ => .h
  | .pinHold => .p
  | .pinSetLow => .p
  | .pinSetHigh => .p
  | .pinInit => .p

end Sys2Proof
end

