-- ==== Sys2Proof/WellFormed.lean ====
section
/-! DEFINITION. What software may issue and an assembler emits (spec 30_encoding.md R72, R73, R81; log 14). The
hardware accepts more: an ill-formed command is decoded and run like any other (R73, R130), so no meaning and no
decoder reads these checks. -/

namespace Sys2Proof

/-- "An assembler should emit ignored bits as 0" (R72). -/
def Instr.ignoredBitsClear : Instr → Bool
  | .reserved0 x => x == 0
  | .init x => x == 0
  | .tx _ => true
  | .txGuarded _ => true
  | .txAuto _ => true
  | .setGuard _ x => x == 0
  | .reserved6 x => x == 0
  | .reserved7 x => x == 0
  | .pinHold => true
  | .pinSetLow => true
  | .pinSetHigh => true
  | .pinInit => true

/-- A command with a reserved opcode: "Software must not issue it" (R73). -/
def Instr.reserved : Instr → Bool
  | .reserved0 _ => true
  | .init _ => false
  | .tx _ => false
  | .txGuarded _ => false
  | .txAuto _ => false
  | .setGuard _ _ => false
  | .reserved6 _ => true
  | .reserved7 _ => true
  | .pinHold => false
  | .pinSetLow => false
  | .pinSetHigh => false
  | .pinInit => false

/-- Neither a reserved opcode nor a set bit that is ignored. -/
def Instr.wellFormed (i : Instr) : Bool := i.ignoredBitsClear && !i.reserved

end Sys2Proof
end

