-- ==== Sys2Proof/Decode.lean ====
section
/-! DEFINITION. Decoding and encoding of command words and pin-operation codes (spec 30_encoding.md R70 to R74, R81,
and spec/opcode_table.json). Every 11-bit word and every 2-bit code is an instruction; a number that fits neither
port is rejected by name. -/

namespace Sys2Proof

/-- `CMD[10:8]` (R70). -/
def commandOp (w : CommandWord) : BitVec 3 := w.extractLsb' 8 3

/-- `CMD[7:0]` (R70). -/
def commandOperand (w : CommandWord) : Byte := w.extractLsb' 0 8

/-- `{op, operand}` (R81: the encoding of a line is `(op << 8) | operand`). -/
def commandWord (op : BitVec 3) (operand : Byte) : CommandWord := op ++ operand

/-- `operand[0]`, the new flag value of `SET_GUARD` (R72). -/
def guardOperand (operand : Byte) : Bool := operand.getLsbD 0

/-- `operand[7:1]`, which `SET_GUARD` ignores (R72). -/
def guardIgnored (operand : Byte) : BitVec 7 := operand.extractLsb' 1 7

/-- `operand` of `SET_GUARD` from its flag value and its ignored bits. -/
def guardByte (v : Bool) (ignored : BitVec 7) : Byte := ignored ++ BitVec.ofBool v

/-- The opcode map (R71): the instruction is selected by `op` alone. The last arm is `op = 0b111`. -/
def decodeCommand (w : CommandWord) : Instr :=
  match (commandOp w).toNat with
  | 0 => .reserved0 (commandOperand w)
  | 1 => .init (commandOperand w)
  | 2 => .tx (commandOperand w)
  | 3 => .txGuarded (commandOperand w)
  | 4 => .txAuto (commandOperand w)
  | 5 => .setGuard (guardOperand (commandOperand w)) (guardIgnored (commandOperand w))
  | 6 => .reserved6 (commandOperand w)
  | _ => .reserved7 (commandOperand w)

/-- The pin operation of a code (R74). The last arm is `0b11`. -/
def decodePinCode (c : PinCode) : PinOp :=
  match c.toNat with
  | 0 => .hold
  | 1 => .setLow
  | 2 => .setHigh
  | _ => .init

/-- The instruction of a word, total (R132: "every 11-bit word has exactly one arm"; R74: no code is reserved). -/
def decode : Encoded → Instr
  | .command w => decodeCommand w
  | .pinOp c => (decodePinCode c).toInstr

/-- Why a number is no word of the block. -/
inductive DecodeReject where
  /-- the number has a bit above `CMD[10]` -/
  | widerThanCommandPort
  /-- the number has a bit above `pin_op[1]` -/
  | widerThanPinOp
deriving DecidableEq, Repr

/-- The word of a format that a number is, rejecting by name a number that does not fit. -/
def readWord (f : Format) (w : Nat) : Except DecodeReject Encoded :=
  match f with
  | .h => if w < 2 ^ 11 then .ok (.command (BitVec.ofNat 11 w)) else .error .widerThanCommandPort
  | .p => if w < 2 ^ 2 then .ok (.pinOp (BitVec.ofNat 2 w)) else .error .widerThanPinOp

/-- The format of a table row by its width in bits: the two-bit codes fill one byte, the 11-bit words two (log 11). -/
def formatOfBits (nbits : Nat) : Format := if nbits ≤ 8 then .p else .h

/-- Decoding in spec/opcode_table.json's numbering of bits, bit 0 the least significant bit of the word. -/
def decodeTableWord (nbits w : Nat) : Option Instr :=
  match readWord (formatOfBits nbits) w with
  | .ok e => some (decode e)
  | .error _ => none

/-- The opcode of a command (R71); nothing for a pin operation. -/
def Instr.opcode : Instr → Option (BitVec 3)
  | .reserved0 _ => some 0b000
  | .init _ => some 0b001
  | .tx _ => some 0b010
  | .txGuarded _ => some 0b011
  | .txAuto _ => some 0b100
  | .setGuard _ _ => some 0b101
  | .reserved6 _ => some 0b110
  | .reserved7 _ => some 0b111
  | .pinHold => none
  | .pinSetLow => none
  | .pinSetHigh => none
  | .pinInit => none

/-- The code of a pin operation (R74). -/
def PinOp.code : PinOp → PinCode
  | .hold => 0b00
  | .setLow => 0b01
  | .setHigh => 0b10
  | .init => 0b11

/-- The words of an instruction, from the tables of R71 and R74 and the encodings of R81. -/
def encode : Instr → Encoded
  | .reserved0 x => .command (commandWord 0b000 x)
  | .init x => .command (commandWord 0b001 x)
  | .tx b => .command (commandWord 0b010 b)
  | .txGuarded b => .command (commandWord 0b011 b)
  | .txAuto b => .command (commandWord 0b100 b)
  | .setGuard v x => .command (commandWord 0b101 (guardByte v x))
  | .reserved6 x => .command (commandWord 0b110 x)
  | .reserved7 x => .command (commandWord 0b111 x)
  | .pinHold => .pinOp 0b00
  | .pinSetLow => .pinOp 0b01
  | .pinSetHigh => .pinOp 0b10
  | .pinInit => .pinOp 0b11

/-- A row of spec/opcode_table.json: its format, match and mask. -/
structure OpcodeRow where
  format : Format
  matchBits : Nat
  mask : Nat
deriving DecidableEq, Repr

/-- The row's match and mask, written out from spec/opcode_table.json. -/
def Instr.row : Instr → OpcodeRow
  | .reserved0 _ => { format := .h, matchBits := 0x000, mask := 0x700 }
  | .init _ => { format := .h, matchBits := 0x100, mask := 0x700 }
  | .tx _ => { format := .h, matchBits := 0x200, mask := 0x700 }
  | .txGuarded _ => { format := .h, matchBits := 0x300, mask := 0x700 }
  | .txAuto _ => { format := .h, matchBits := 0x400, mask := 0x700 }
  | .setGuard _ _ => { format := .h, matchBits := 0x500, mask := 0x700 }
  | .reserved6 _ => { format := .h, matchBits := 0x600, mask := 0x700 }
  | .reserved7 _ => { format := .h, matchBits := 0x700, mask := 0x700 }
  | .pinHold => { format := .p, matchBits := 0x0, mask := 0x3 }
  | .pinSetLow => { format := .p, matchBits := 0x1, mask := 0x3 }
  | .pinSetHigh => { format := .p, matchBits := 0x2, mask := 0x3 }
  | .pinInit => { format := .p, matchBits := 0x3, mask := 0x3 }

/-- The rows of spec/opcode_table.json, in its order. -/
def opcodeRows : List OpcodeRow :=
  [.reserved0 0, .init 0, .tx 0, .txGuarded 0, .txAuto 0, .setGuard false 0, .reserved6 0, .reserved7 0,
   .pinHold, .pinSetLow, .pinSetHigh, .pinInit].map Instr.row

/-- The format of a word, and the number it is. -/
def Encoded.format : Encoded → Format
  | .command _ => .h
  | .pinOp _ => .p

def Encoded.toNat : Encoded → Nat
  | .command w => w.toNat
  | .pinOp c => c.toNat

/-- A word belongs to a row: same format, and the bits under the mask are the row's. -/
def Encoded.matchesRow (e : Encoded) (r : OpcodeRow) : Bool :=
  decide (e.format = r.format) && e.toNat &&& r.mask == r.matchBits

end Sys2Proof
end

