-- ==== Sys2Proof/Config.lean ====
section
/-! DEFINITION. The elaboration-time parameters of the block (spec 00_scope.md R6 to R12) and what the
spec leaves open: the configuration a block is built with, and the host's inputs past the end of a schedule. -/

namespace Sys2Proof

/-- The parameter `PROFILE` (R8). -/
inductive Profile where
  | slow
  | fast
deriving DecidableEq, Repr, Inhabited

/-- One entry of `PROFILE_TABLE`: at (`clkHz`, `profile`) the table gives (`baud`, `n`) (R8). -/
structure ProfileEntry where
  clkHz : Nat
  profile : Profile
  baud : Nat
  n : Nat
deriving DecidableEq, Repr, Inhabited

/-- The complete parameter list (R12), fixed at elaboration; no step changes one (R6).
The last two are the model's own: the unspecified reset values of `CYC` and `TXD` (DESIGN CHOICE, log 2). -/
structure Config where
  /-- `CLK_HZ`, read by ConfigValid only. -/
  clkHz : Nat
  /-- `BAUD`, read by ConfigValid only. -/
  baud : Nat
  /-- `PROFILE`, read by ConfigValid only. -/
  profile : Profile
  /-- `CLOCK_SET`, a finite set given by its members. -/
  clockSet : List Nat
  /-- `PROFILE_TABLE`, a finite partial function given by its entries, the first match counting (log 12). -/
  profileTable : List ProfileEntry
  /-- `N`, also `CYCLES_PER_BIT`: the bit period in cycles, the one timing parameter the run-time rules use (R7). -/
  n : Nat
  /-- `PIN_ID`: a label no rule depends on (R59). -/
  pinId : Nat
  /-- `FORCE_GUARD` (R9, R126). -/
  forceGuard : Bool
  /-- `PIN_OP_CYCLES`: informational only; no rule depends on it (R183). -/
  pinOpCycles : Nat
  /-- `PIN_LEVEL_RESET`: open (R161, U4). -/
  pinLevelReset : Bool
  /-- `IE_RESET`: open (R161, U4). -/
  ieReset : Bool
  /-- The model's own: what `CYC` holds after reset, where the spec gives no value (U3). -/
  cycReset : Nat
  /-- The model's own: what `TXD` holds after reset, where the spec gives no value (U3). -/
  txdReset : Byte
deriving DecidableEq, Repr, Inhabited

/-- `W`, the width of `CYC`: the least `w >= 1` with `2^w >= N` (R12). -/
def Config.cycWidth (c : Config) : Nat := Nat.log2 (c.n - 1) + 1

/-- `PROFILE_TABLE(clk, p)`: the pair (`BAUD`, `N`), where the table is defined (R8). -/
def profileLookup : List ProfileEntry → Nat → Profile → Option (Nat × Nat)
  | [], _, _ => none
  | e :: rest, clk, p =>
    if e.clkHz = clk ∧ e.profile = p then some (e.baud, e.n) else profileLookup rest clk p

/-- `ConfigValid` (R10): the clock is in `CLOCK_SET`, the table at (`CLK_HZ`, `PROFILE`) is defined and equals
(`BAUD`, `N`), and `N >= 2`. -/
def Config.valid (c : Config) : Bool :=
  decide (c.clkHz ∈ c.clockSet) &&
  decide (profileLookup c.profileTable c.clkHz c.profile = some (c.baud, c.n)) &&
  decide (2 ≤ c.n)

/-- What R8 says of the table at one clock: `SLOW` is defined, and where `FAST` is defined its baud rate is higher. -/
def clockLawful (t : List ProfileEntry) (clk : Nat) : Bool :=
  match profileLookup t clk .slow, profileLookup t clk .fast with
  | none, _ => false
  | some _, none => true
  | some (slowBaud, _), some (fastBaud, _) => decide (slowBaud < fastBaud)

/-- The constraints of R7 and R8 on the open parameters: the table is lawful at every supported clock, the baud
rate is positive (R112 (e)), and an exact quotient is the bit period. -/
def Config.lawful (c : Config) : Bool :=
  c.clockSet.all (clockLawful c.profileTable) &&
  decide (0 < c.baud) &&
  decide (c.clkHz % c.baud = 0 → c.n = c.clkHz / c.baud)

/-- A configuration a block can be built with. -/
def Config.admissible (c : Config) : Bool := c.valid && c.lawful

/-- The choice the spec leaves open (R12, D10, D11, D17, D18): some configuration, of which nothing is known.
DESIGN CHOICE (log 1). -/
opaque Config.chosen : Config

/-- That admissible configurations exist: one clock, its slow profile, two cycles a bit. Used only where the open
choice is not admissible, since a block with an inadmissible configuration does not exist (R10). -/
def Config.smallest : Config :=
  { clkHz := 2, baud := 1, profile := .slow, clockSet := [2],
    profileTable := [{ clkHz := 2, profile := .slow, baud := 1, n := 2 }],
    n := 2, pinId := 0, forceGuard := false, pinOpCycles := 2, pinLevelReset := false, ieReset := false,
    cycReset := 0, txdReset := 0 }

/-- The configuration of the block that `State.reset` is the reset state of: any admissible one (log 1). -/
def Config.build : Config :=
  if Config.chosen.admissible then Config.chosen else Config.smallest

/-- The inputs the host chooses in the cycles after a schedule's end: free values, one tuple for each cycle number
(R16: "The model must quantify over every choice of I(t)"). DESIGN CHOICE (log 3). -/
opaque Config.hostInputs : Nat → Inputs

end Sys2Proof
end

