-- ==== Sys2Proof/Machine/State.lean ====
section
/-! DEFINITION. The state of the block (spec 10_state.md section 1), its outputs and its reset state
(70_reset_and_hazards.md R161). The eight registers come first; `cfg`, `inputs` and `cycle` are the model's own
fields (logs 1 and 3). -/

namespace Sys2Proof.Machine

/-- The eleven legal values of `SLOT` (R21, R75). The codes 11 to 15 cannot be written down (R76; log 6). -/
inductive Slot where
  | idle
  | start
  | data (k : Fin 8)
  | stop
deriving DecidableEq, Repr

/-- What the pad carries: a level, or `Z` where the block does not drive it; `Z` is no level (R13, R95; log 16). -/
inductive Pad where
  | low
  | high
  | z
deriving DecidableEq, Repr

/-- The outputs of one cycle (R40, R136). -/
structure Outputs where
  cmdReady : Bool
  busy : Bool
  pinO : Bool
  pinOe : Bool
  ie : Bool
  stall : Bool
deriving DecidableEq, Repr

/-- Everything the spec gives the block, as plain data. -/
structure State where
  /-- `SLOT` (R21). -/
  slot : Slot
  /-- `CYC`: the further cycles the current slot lasts (R23; log 7). -/
  cyc : Nat
  /-- `TXD`: the operand of the frame in flight (R22). -/
  txd : Byte
  /-- `GUARD_ACT`: the frame in flight took the guarded path (R25). -/
  guardAct : Bool
  /-- `GUARD_EN`: the Global Interrupt-Guard Flag (R26). -/
  guardEn : Bool
  /-- `PIN_LEVEL` (R27). -/
  pinLevel : Bool
  /-- `PIN_DIR`: true where the pin is an output (R28). -/
  pinDir : Bool
  /-- `IE`: the host's interrupt-enable bit (R29). -/
  ie : Bool
  /-- The parameters the block was elaborated with; no step changes them (R6, R12; log 1). -/
  cfg : Config
  /-- The host's schedule: the inputs of this cycle and of those after it (R16; log 3). -/
  inputs : List Inputs
  /-- The number of this cycle, counted from an arbitrary origin (R14; log 3). -/
  cycle : Nat
deriving DecidableEq, Repr

/-- The block raises no exception and has no fault state (R137, R140): there is no fault to name. -/
inductive Fault where
deriving DecidableEq, Repr

/-- The block refuses nothing at run time (R137). -/
inductive Refusal where
  /-- Raised by no meaning and by no arm of `exec`: it is the host's form of an instruction without a meaning.
  Safe where it stands: the machine would stop. -/
  | notModelled (mnemonic : String)
deriving DecidableEq, Repr

/-- `ResetState` (R161) of a block built with the configuration `c`: the values the spec gives; the open parameters
`PIN_LEVEL_RESET` and `IE_RESET`; and for `CYC` (cut to its width `W`) and `TXD`, which the spec leaves unspecified,
the model's own open parameters (DESIGN CHOICE, log 2). -/
def State.resetOf (c : Config) : State :=
  { slot := .idle
    cyc := c.cycReset % 2 ^ c.cycWidth
    txd := c.txdReset
    guardAct := false
    guardEn := true
    pinLevel := c.pinLevelReset
    pinDir := false
    ie := c.ieReset
    cfg := c
    inputs := []
    cycle := 0 }

/-- The machine right after reset, built with an open admissible configuration, no schedule placed (logs 1, 3, 4). -/
def State.reset : State := State.resetOf Config.build

end Sys2Proof.Machine
end

