-- ==== Sys2Proof/Machine/Operands.lean ====
section
/-! DEFINITION. What becomes of a frame's operand byte: the wire frame (spec 30_encoding.md R77, R78), the order of
the slots (R75) and the pin operation that enters a slot (41_bit_timing_fsm.md R100, R102 to R104). -/

namespace Sys2Proof.Machine

/-- `TXD[k]`, for `k = 0..7` (R52: data slot `k` carries `TXD[k]`). -/
def dataBit (b : Byte) (k : Nat) : Bool := b.getLsbD k

/-- `FrameBit(b, i)` for `i = 0..9`: start bit LOW, data bits least significant first, stop bit HIGH (R78). -/
def frameBit (b : Byte) (i : Nat) : Bool :=
  if i = 0 then false else if i ≤ 8 then dataBit b (i - 1) else true

/-- The frame as the 10-bit value `F = {1, b[7:0], 0}`, sent from bit 0 upward (R78). -/
def frameWord (b : Byte) : BitVec 10 := (1#1 ++ b) ++ 0#1

/-- The code of a slot (R75). -/
def Slot.code : Slot → SlotCode
  | .idle => 0
  | .start => 1
  | .data k => BitVec.ofNat 4 (2 + k.val)
  | .stop => 10

/-- The slot that follows: START, DATA0, ..., DATA7, STOP, IDLE (R21). IDLE is left by a command only (R106). -/
def Slot.next : Slot → Slot
  | .idle => .idle
  | .start => .data 0
  | .data k => if h : k.val + 1 < 8 then .data ⟨k.val + 1, h⟩ else .stop
  | .stop => .idle

/-- `if bit = 1 then PIN_SET_HIGH else PIN_SET_LOW` (R102, R103). -/
def levelPinOp (bit : Bool) : PinOp := if bit then .setHigh else .setLow

/-- The pin operation issued on entry to a slot: start LOW (R100), a data slot its bit (R102, R103), stop HIGH (R104);
the end of the frame issues PIN_HOLD (R105). -/
def entryPinOp (sl : Slot) (txd : Byte) : PinOp :=
  match sl with
  | .idle => .hold
  | .start => .setLow
  | .data k => levelPinOp (dataBit txd k.val)
  | .stop => .setHigh

/-- The level driven while in a slot of a frame (R75); IDLE's level is the last one written. -/
def slotLevel (sl : Slot) (txd : Byte) : Option Bool :=
  match sl with
  | .idle => none
  | .start => some false
  | .data k => some (dataBit txd k.val)
  | .stop => some true

end Sys2Proof.Machine
end

