-- ==== Sys2Proof/Machine/Flags.lean ====
section
/-! DEFINITION. The signals and status bits computed from the state and the inputs of a cycle: `busy` (spec
10_state.md R24), `cmd_ready` and acceptance (43_engine_top.md R130), `stall` (60_exceptions.md R145), `GuardSelect`
(42_guard_policy.md R120), the outputs (R136) and the pad (40_pin_controller.md R95). The block has no condition
codes and no arithmetic flags (R24). -/

namespace Sys2Proof.Machine

/-- `busy = (SLOT != IDLE)` (R24). -/
def State.busy (s : State) : Bool :=
  match s.slot with
  | .idle => false
  | .start => true
  | .data _ => true
  | .stop => true

/-- `cmd_ready = !busy` (R130); it does not depend on `rst` (R136). -/
def State.cmdReady (s : State) : Bool := !s.busy

/-- `stall = busy and irq and IE` (R145). -/
def State.stall (i : Inputs) (s : State) : Bool := s.busy && i.irq && s.ie

/-- The word accepted in this cycle: presented, ready, and no reset (R130). -/
def State.acceptedWord (i : Inputs) (s : State) : Option CommandWord :=
  if i.rst then none else if s.busy then none else if i.cmdValid then some i.cmd else none

/-- The host's write of `IE` is honoured: between frames, or inside a handler that has preempted one (R148). -/
def State.ieWriteHonoured (i : Inputs) (s : State) : Bool := i.ieWe && (!s.busy || s.stall i)

/-- `GuardSelect(op)` (R120), with the parameter `FORCE_GUARD` and the register `GUARD_EN` as it is now. -/
def guardSelect (op : TxOp) (s : State) : Bool :=
  match op with
  | .tx => s.cfg.forceGuard
  | .txGuarded => true
  | .txAuto => s.cfg.forceGuard || s.guardEn

/-- The outputs of the cycle (R136). -/
def State.outputs (i : Inputs) (s : State) : Outputs :=
  { cmdReady := s.cmdReady
    busy := s.busy
    pinO := s.pinLevel
    pinOe := s.pinDir
    ie := s.ie
    stall := s.stall i }

/-- `PAD = PIN_LEVEL` when `PIN_DIR = 1`, `PAD = Z` when `PIN_DIR = 0` (R95). -/
def State.pad (s : State) : Pad :=
  if s.pinDir then (if s.pinLevel then .high else .low) else .z

end Sys2Proof.Machine
end

