-- ==== Sys2Proof/Machine/Ops.lean ====
section
/-! DEFINITION. The named operations over the registers, written once and called by every meaning and by the slot
rules: pin operations (spec 40_pin_controller.md R90 to R93), `StartFrame` (41_bit_timing_fsm.md R100), entering a
slot, counting down and ending a frame (R101 to R105), the guard flag (42_guard_policy.md R123), the host's write of
`IE` (60_exceptions.md R148), `ResetState` (70_reset_and_hazards.md R161), and reading the host's schedule. The block
has no memory (20_memory.md R50) and no exception to take or return from (60_exceptions.md R140, R150, R151). -/

namespace Sys2Proof.Machine

/-- The host's inputs of the cycle `j` cycles after this one: the schedule's entry, or past its end a free value (log 3). -/
def State.inputAt (s : State) (j : Nat) : Inputs :=
  match s.inputs[j]? with
  | some i => i
  | none => Config.hostInputs (s.cycle + j)

/-- The inputs `I(t)` of this cycle. -/
def State.input (s : State) : Inputs := s.inputAt 0

/-- The cycle is over: the schedule and the cycle number move on by one. No register changes. -/
def State.tick (s : State) : State := { s with inputs := s.inputs.tail, cycle := s.cycle + 1 }

/-- `PinOp(op)`: PIN_HOLD changes nothing, PIN_SET_LOW and PIN_SET_HIGH write the level, PIN_INIT writes the level
and the direction at the same edge (R90 to R93). -/
def State.pinOp (p : PinOp) (s : State) : State :=
  match p with
  | .hold => s
  | .setLow => { s with pinLevel := false }
  | .setHigh => { s with pinLevel := true }
  | .init => { s with pinLevel := true, pinDir := true }

/-- `SLOT <- sl; CYC <- N - 1`: what every slot entry does (R100, R102 to R104). -/
def State.enterSlot (sl : Slot) (s : State) : State := { s with slot := sl, cyc := s.cfg.n - 1 }

/-- Guard entry, `if g then IE <- 0` (R124). The previous value is saved nowhere. -/
def State.guardEntry (g : Bool) (s : State) : State := { s with ie := if g then false else s.ie }

/-- Guard exit, `if GUARD_ACT then IE <- 1` (R125), unconditional in the old value of `IE`. -/
def State.guardExit (s : State) : State := { s with ie := if s.guardAct then true else s.ie }

/-- `StartFrame(b, g)` (R100). -/
def State.startFrame (b : Byte) (g : Bool) (s : State) : State :=
  (({ s with txd := b, guardAct := g }.guardEntry g).pinOp .setLow).enterSlot .start

/-- Count-down inside a slot, `CYC <- CYC - 1` (R101). -/
def State.countDown (s : State) : State := { s with cyc := s.cyc - 1 }

/-- STOP to IDLE: `SLOT <- IDLE`, the guard exit, `GUARD_ACT <- 0`; `TXD` and `CYC` are left as they are (R105). -/
def State.endFrame (s : State) : State := { s.guardExit with slot := .idle, guardAct := false }

/-- `GUARD_EN <- v` (R123). -/
def State.setGuardEn (v : Bool) (s : State) : State := { s with guardEn := v }

/-- The host's write port: `IE <- ie_d` where the write is honoured, otherwise nothing (R148). -/
def State.hostIeWrite (i : Inputs) (s : State) : State :=
  { s with ie := if s.ieWriteHonoured i then i.ieD else s.ie }

/-- `ResetState` at a clock edge (R160, R161): every register at its reset value; the parameters, the host's schedule
and the cycle number are no registers and stay. -/
def State.toReset (s : State) : State :=
  { State.resetOf s.cfg with inputs := s.inputs, cycle := s.cycle }

end Sys2Proof.Machine
end

