-- ==== Sys2Proof/Machine/BitTiming.lean ====
section
/-! DEFINITION. The family `bit_timing_fsm` (spec 41_bit_timing_fsm.md): the command TX and the slot rules R101 to
R105, which run in every busy cycle that is neither a reset cycle nor stalled. -/

namespace Sys2Proof.Machine

/-- `TX b` (R100): `StartFrame(b, FORCE_GUARD)`. -/
def execTx (b : Byte) (s : State) : Host.Outcome State Fault Refusal :=
  .next (s.startFrame b (guardSelect .tx s))

/-- The pin operation the slot rules issue: none inside a slot (R101); at a slot's last cycle the one that enters the
next slot (R102 to R104); PIN_HOLD at the end of the frame (R105). -/
def State.slotPinOp (s : State) : PinOp :=
  if s.cyc ≠ 0 then .hold else entryPinOp s.slot.next s.txd

/-- The registers of the sequencer after a slot rule, less the pin: count-down (R101), the next slot (R102 to R104),
or the end of the frame (R105). -/
def State.advanceSlot (s : State) : State :=
  if s.cyc ≠ 0 then s.countDown
  else match s.slot with
    | .idle => s
    | .start => s.enterSlot s.slot.next
    | .data _ => s.enterSlot s.slot.next
    | .stop => s.endFrame

end Sys2Proof.Machine
end

