-- ==== Sys2Proof/Machine/GuardPolicy.lean ====
section
/-! DEFINITION. Meanings of the critical-section policy (spec 42_guard_policy.md): TX_GUARDED, TX_AUTO, SET_GUARD. -/

namespace Sys2Proof.Machine

/-- `TX_GUARDED b` (R121): `StartFrame(b, 1)`. -/
def execTxGuarded (b : Byte) (s : State) : Host.Outcome State Fault Refusal :=
  .next (s.startFrame b (guardSelect .txGuarded s))

/-- `TX_AUTO b` (R122): `StartFrame(b, FORCE_GUARD or GUARD_EN)`, the flag read once, now. -/
def execTxAuto (b : Byte) (s : State) : Host.Outcome State Fault Refusal :=
  .next (s.startFrame b (guardSelect .txAuto s))

/-- `SET_GUARD v` (R123): `GUARD_EN <- v`; the other operand bits are ignored (R72). -/
def execSetGuard (v : Bool) (_ignored : BitVec 7) (s : State) : Host.Outcome State Fault Refusal :=
  .next (s.setGuardEn v)

end Sys2Proof.Machine
end

