-- ==== Sys2Proof/Machine/PinController.lean ====
section
/-! DEFINITION. Meanings of the family `output_pin_controller` (spec 40_pin_controller.md): the four pin operations and
the host command INIT. A pin operation cannot fail (R97) and takes effect at one edge (R96). -/

namespace Sys2Proof.Machine

/-- `PIN_HOLD` (R90): `PIN_LEVEL` and `PIN_DIR` keep their values. -/
def execPinHold (s : State) : Host.Outcome State Fault Refusal := .next (s.pinOp .hold)

/-- `PIN_SET_LOW` (R91): `PIN_LEVEL <- 0`. -/
def execPinSetLow (s : State) : Host.Outcome State Fault Refusal := .next (s.pinOp .setLow)

/-- `PIN_SET_HIGH` (R92): `PIN_LEVEL <- 1`. -/
def execPinSetHigh (s : State) : Host.Outcome State Fault Refusal := .next (s.pinOp .setHigh)

/-- `PIN_INIT` (R93): `PIN_LEVEL <- 1; PIN_DIR <- 1`. -/
def execPinInit (s : State) : Host.Outcome State Fault Refusal := .next (s.pinOp .init)

/-- `INIT` (R94): `PinOp(PIN_INIT)`, nothing else; the operand is ignored (R72). -/
def execInit (_ignored : Byte) (s : State) : Host.Outcome State Fault Refusal := .next (s.pinOp .init)

end Sys2Proof.Machine
end

