-- ==== Sys2Proof/Machine/Reserved.lean ====
section
/-! DEFINITION. Meanings of the reserved opcodes (spec 30_encoding.md R73): accepted like any other command, complete
at the acceptance edge, change no state (log 8). -/

namespace Sys2Proof.Machine

/-- `RESERVED_0`, op 0b000 (R73): nothing. -/
def execReserved0 (_ignored : Byte) (s : State) : Host.Outcome State Fault Refusal := .next s

/-- `RESERVED_6`, op 0b110 (R73): nothing. -/
def execReserved6 (_ignored : Byte) (s : State) : Host.Outcome State Fault Refusal := .next s

/-- `RESERVED_7`, op 0b111 (R73): nothing. -/
def execReserved7 (_ignored : Byte) (s : State) : Host.Outcome State Fault Refusal := .next s

end Sys2Proof.Machine
end

