-- ==== Sys2Proof/Machine/Dispatch.lean ====
section
/-! DEFINITION. The effect of an accepted command (spec 43_engine_top.md R132, Dispatch) or of an issued pin operation
(40_pin_controller.md R90 to R93). Whether a command IS accepted is the step's affair (R130; log 9). -/

namespace Sys2Proof.Machine

def exec (i : Instr) (s : State) : Host.Outcome State Fault Refusal :=
  match i with
  | .reserved0 x => Sys2Proof.Machine.execReserved0 x s
  | .init x => Sys2Proof.Machine.execInit x s
  | .tx b => Sys2Proof.Machine.execTx b s
  | .txGuarded b => Sys2Proof.Machine.execTxGuarded b s
  | .txAuto b => Sys2Proof.Machine.execTxAuto b s
  | .setGuard v x => Sys2Proof.Machine.execSetGuard v x s
  | .reserved6 x => Sys2Proof.Machine.execReserved6 x s
  | .reserved7 x => Sys2Proof.Machine.execReserved7 x s
  | .pinHold => Sys2Proof.Machine.execPinHold s
  | .pinSetLow => Sys2Proof.Machine.execPinSetLow s
  | .pinSetHigh => Sys2Proof.Machine.execPinSetHigh s
  | .pinInit => Sys2Proof.Machine.execPinInit s

end Sys2Proof.Machine
end

