-- ==== Sys2Proof/Machine/Engine.lean ====
section
/-! DEFINITION. The top level (spec 43_engine_top.md): `Step(S, I)` of R135, the pin operation on the internal
interface (10_state.md R41), and the elaboration check (00_scope.md R10). -/

namespace Sys2Proof.Machine

/-- `Step(S, I)` (R135), its arms in the order of R149: reset; the host's write of `IE`; a stalled cycle, in which
nothing else changes (R146); an idle cycle, which dispatches the command presented, if any; and a busy cycle, which
applies a slot rule. Each cycle other than a reset cycle executes one instruction of the table: the command accepted,
or the pin operation issued (log 10). -/
def clockEdge (i : Inputs) (s : State) : Host.Outcome State Fault Refusal :=
  if i.rst then .next s.toReset
  else if s.stall i then exec PinOp.hold.toInstr (s.hostIeWrite i)
  else if s.busy then exec s.slotPinOp.toInstr (s.hostIeWrite i).advanceSlot
  else if i.cmdValid then exec (decodeCommand i.cmd) (s.hostIeWrite i)
  else exec PinOp.hold.toInstr (s.hostIeWrite i)

/-- The pin operation a command issues: INIT issues PIN_INIT, a command of the TX class PIN_SET_LOW, no other
command one (R94, R100, R132). -/
def commandPinOp (i : Instr) : PinOp :=
  match i with
  | .reserved0 _ => .hold
  | .init _ => .init
  | .tx _ => .setLow
  | .txGuarded _ => .setLow
  | .txAuto _ => .setLow
  | .setGuard _ _ => .hold
  | .reserved6 _ => .hold
  | .reserved7 _ => .hold
  | .pinHold => .hold
  | .pinSetLow => .setLow
  | .pinSetHigh => .setHigh
  | .pinInit => .init

/-- `pin_op` of the cycle (R41): the accepted command's, or the slot rule's; PIN_HOLD in every other cycle, stalled
and reset cycles included (R90; log 20). -/
def State.issuedPinOp (i : Inputs) (s : State) : PinOp :=
  if i.rst then .hold
  else if s.stall i then .hold
  else if s.busy then s.slotPinOp
  else if i.cmdValid then commandPinOp (decodeCommand i.cmd)
  else .hold

/-- Why a block is not built (R10). -/
inductive ElaborationRefusal where
  /-- `CLK_HZ` is not a member of `CLOCK_SET` -/
  | clockNotSupported
  /-- `PROFILE_TABLE` at (`CLK_HZ`, `PROFILE`) is undefined or is not (`BAUD`, `N`) -/
  | profileNotTuned
  /-- `N < 2` -/
  | bitPeriodTooShort
deriving DecidableEq, Repr

/-- Building a block: an invalid configuration is refused and has no block (R10, R142); a valid one comes up in
`ResetState` (DEDUCED, log 19: R160 and U5 leave the state before the first reset cycle unspecified). -/
def elaborateBlock (c : Config) : Except ElaborationRefusal State :=
  if c.clkHz ∉ c.clockSet then .error .clockNotSupported
  else if profileLookup c.profileTable c.clkHz c.profile ≠ some (c.baud, c.n) then .error .profileNotTuned
  else if c.n < 2 then .error .bitPeriodTooShort
  else .ok (State.resetOf c)

end Sys2Proof.Machine
end

