-- ==== Sys2Proof/Machine/Step.lean ====
section
/-! DEFINITION. One step is one rising edge of `clk` (spec 00_scope.md R14): `S(t+1) = Step(S(t), I(t))`, with `I(t)`
the head of the host's schedule, and the placing of one instruction so that the next step runs it (log 4, log 10). -/

namespace Sys2Proof.Machine

/-- `S(t+1) = Step(S(t), I(t))`, and the schedule moves on by one cycle. -/
def step (s : State) : Host.Outcome State Fault Refusal := clockEdge s.input s.tick

/-- The block between frames, so that the command port is ready (R130); a frame in flight is dropped. -/
def State.betweenFrames (s : State) : State := { s with slot := .idle, guardAct := false }

/-- The host's inputs of this cycle replaced by `i`; its later inputs stay. -/
def State.withInput (i : Inputs) (s : State) : State := { s with inputs := i :: s.inputs.tail }

/-- The last cycle of a slot whose exit issues the pin operation (R102 to R104). -/
def State.atSlotExit (sl : Slot) (s : State) : State := { s with slot := sl, cyc := 0, txd := 0 }

/-- `s` made ready so that the very next step runs the instruction of the word. A command word is presented on the
ready command port (R130, R81). A pin-operation code cannot be presented by the host (R74): the block is put where it
issues that operation by itself, PIN_HOLD in an idle cycle (R90), PIN_SET_LOW at the exit of START with `TXD[0] = 0`
(R102), PIN_SET_HIGH at the exit of DATA7 (R104), PIN_INIT by the command INIT (R94). -/
def State.withFetchWord (s : State) (nbits w : Nat) : State :=
  match formatOfBits nbits with
  | .h => (s.betweenFrames).withInput (Inputs.present (BitVec.ofNat 11 w))
  | .p =>
    match decodePinCode (BitVec.ofNat 2 w) with
    | .hold => (s.betweenFrames).withInput Inputs.quiet
    | .setLow => (s.atSlotExit .start).withInput Inputs.quiet
    | .setHigh => (s.atSlotExit (.data 7)).withInput Inputs.quiet
    | .init => (s.betweenFrames).withInput (Inputs.present (commandWord 0b001 0))

end Sys2Proof.Machine
end

