-- ==== Sys2Proof/Safety.lean ====
section
/-! DEFINITION. The terms claims are stated in: runs `S(0), S(1), ...` under the host's schedule, what happens in one
cycle of a run, the start of a frame, and the invariant of spec 10_state.md R47. The block has no fault state and no
refusal (R137), so every run goes on for ever; a safe run is one whose states meet `State.Inv`. -/

namespace Sys2Proof.Machine

/-- The state after one step; the machine has no other outcome than a next state (R137). -/
def State.advance (s : State) : State :=
  match step s with
  | .next t => t
  | .fault _ => s
  | .refused _ => s

/-- `S(k)`, where `s` is `S(0)`. -/
def State.stateAt (s : State) : Nat → State
  | 0 => s
  | k + 1 => (s.stateAt k).advance

/-- The current cycle is a reset cycle. -/
def State.inReset (s : State) : Bool := s.input.rst

/-- The current cycle is stalled (R145). -/
def State.stalled (s : State) : Bool := s.stall s.input

/-- The instruction accepted in the current cycle, if any (R130). -/
def State.accepts (s : State) : Option Instr := (s.acceptedWord s.input).map decodeCommand

/-- The current cycle accepts a command of the TX class with operand `b` (R100, R121, R122). -/
def State.StartsFrame (s : State) (op : TxOp) (b : Byte) : Prop := s.accepts = some (op.toInstr b)

/-- No cycle before cycle `k` is a reset cycle. -/
def State.ResetFree (s : State) (k : Nat) : Prop := ∀ j < k, (s.stateAt j).inReset = false

/-- No cycle from cycle 1 up to, not including, cycle `k` is stalled. -/
def State.StallFree (s : State) (k : Nat) : Prop := ∀ j < k, 1 ≤ j → (s.stateAt j).stalled = false

/-- How many of the cycles 1 up to, not including, `k` are not stalled. -/
def State.progress (s : State) : Nat → Nat
  | 0 => 0
  | k + 1 => s.progress k + (if 1 ≤ k ∧ (s.stateAt k).stalled = false then 1 else 0)

/-- How many of the cycles 1 up to, not including, `k` are stalled. -/
def State.stallCount (s : State) : Nat → Nat
  | 0 => 0
  | k + 1 => s.stallCount k + (if 1 ≤ k ∧ (s.stateAt k).stalled = true then 1 else 0)

/-- How many of the cycles 1 up to, not including, `k` are stalled while `SLOT` has code `i + 1`: the `s_i` of R116. -/
def State.stallsInSlot (s : State) (i : Nat) : Nat → Nat
  | 0 => 0
  | k + 1 => s.stallsInSlot i k +
      (if 1 ≤ k ∧ (s.stateAt k).stalled = true ∧ (s.stateAt k).slot.code.toNat = i + 1 then 1 else 0)

/-- Cycle `j` of the run from `s` is the last of a frame: the STOP exit (R105). -/
def State.CompletesFrame (s : State) (j : Nat) : Prop :=
  (s.stateAt j).slot = .stop ∧ (s.stateAt (j + 1)).slot = .idle ∧ (s.stateAt j).inReset = false

/-- A block of configuration `c` in `ResetState`, at any cycle number, under any schedule of the host. -/
def State.fromReset (c : Config) (schedule : List Inputs) (cycle : Nat) : State :=
  { State.resetOf c with inputs := schedule, cycle := cycle }

/-- Two input tuples that differ at most in the byte of a command of the TX class. -/
def SameButByte (i j : Inputs) : Prop :=
  i.rst = j.rst ∧ i.cmdValid = j.cmdValid ∧ i.irq = j.irq ∧ i.ieWe = j.ieWe ∧ i.ieD = j.ieD ∧
  (i.cmd = j.cmd ∨ ∃ op b c, decodeCommand i.cmd = TxOp.toInstr op b ∧ decodeCommand j.cmd = TxOp.toInstr op c)

/-- Two states that agree in everything but the byte in flight, the pin's level, and the bytes still to be sent. -/
structure SameTiming (s t : State) : Prop where
  slot : s.slot = t.slot
  cyc : s.cyc = t.cyc
  guardAct : s.guardAct = t.guardAct
  guardEn : s.guardEn = t.guardEn
  pinDir : s.pinDir = t.pinDir
  ie : s.ie = t.ie
  cfg : s.cfg = t.cfg
  cycle : s.cycle = t.cycle
  inputs : List.Forall₂ SameButByte s.inputs t.inputs

/-- The invariant: R47 (a) holds by the type of `SLOT`; (b); the width of `CYC` (R23); (c); (d); and, in place of
(e), that an initialised idle line is HIGH. `N >= 2` is the validity of the configuration (R7, R10). -/
structure State.Inv (s : State) : Prop where
  period : 2 ≤ s.cfg.n
  cycBound : s.busy = true → s.cyc ≤ s.cfg.n - 1
  cycWidth : s.cyc < 2 ^ s.cfg.cycWidth
  guarded : s.guardAct = true → s.busy = true ∧ s.ie = false
  level : ∀ l, slotLevel s.slot s.txd = some l → s.pinLevel = l
  idleHigh : s.slot = .idle → s.pinDir = true → s.pinLevel = true

end Sys2Proof.Machine
end

