-- ==== Sys2Proof/Certificates/Slice0/Obligations.lean ====
section
/-! DEFINITION. The statements about the model, each from the numbered rules of spec/. `N` is `s.cfg.n`. A statement
about every state quantifies over every configuration and every schedule of the host, since State holds both; none
rests on the value of a model's own field (logs 1 to 4). -/

open Sys2Proof Sys2Proof.Machine

/-! ## Reset and elaboration -/

/-- R161: the values the spec gives for reset, the two open parameters, and the outputs of the first cycle after
reset. Nothing is claimed of `TXD` and `CYC` (log 2). -/
def Obligations.ResetStateHoldsTheSpecsValues : Prop :=
  ∀ c : Config,
    let s := State.resetOf c
    s.slot = .idle ∧ s.guardAct = false ∧ s.guardEn = true ∧ s.pinDir = false ∧
    s.pinLevel = c.pinLevelReset ∧ s.ie = c.ieReset ∧ s.pad = .z ∧
    ∀ i : Inputs, s.outputs i =
      { cmdReady := true, busy := false, pinO := c.pinLevelReset, pinOe := false, ie := c.ieReset, stall := false }

/-- A block exists exactly for a valid configuration (R10), and comes up in its reset state. That it comes up there is the
model's choice (log 19, DEDUCED): R160 and U5 leave the state before the first reset cycle unspecified. -/
def Obligations.ElaborationBuildsExactlyValidConfigurations : Prop :=
  ∀ (c : Config) (s : State), elaborateBlock c = .ok s ↔
    (c.clkHz ∈ c.clockSet ∧ profileLookup c.profileTable c.clkHz c.profile = some (c.baud, c.n) ∧ 2 ≤ c.n) ∧
    s = State.resetOf c

/-- R12: `W` is the least `w >= 1` with `2^w >= N`. -/
def Obligations.CycWidthIsTheLeastThatHoldsN : Prop :=
  ∀ c : Config, 1 ≤ c.cycWidth ∧ c.n ≤ 2 ^ c.cycWidth ∧ ∀ w, 1 ≤ w → c.n ≤ 2 ^ w → c.cycWidth ≤ w

/-- R160, R162: a cycle with `rst = 1` gives `ResetState` whatever the state and the other inputs, in mid-frame too
(the guard exit is not performed); and outside reset a frame ends only at its STOP exit. Nothing is claimed of `TXD` and
`CYC` after reset (log 2). -/
def Obligations.ResetCycleGivesResetState : Prop :=
  (∀ s : State, s.inReset = true → ∃ t, step s = .next t ∧
    t.cfg = s.cfg ∧ t.inputs = s.inputs.tail ∧ t.cycle = s.cycle + 1 ∧
    t.slot = .idle ∧ t.pinDir = false ∧ t.pad = .z ∧ t.guardAct = false ∧ t.guardEn = true ∧
    t.pinLevel = s.cfg.pinLevelReset ∧ t.ie = s.cfg.ieReset) ∧
  (∀ s t : State, s.inReset = false → s.busy = true → ¬ (s.slot = .stop ∧ s.cyc = 0) →
    step s = .next t → t.busy = true)

/-! ## Commands: each result is the whole next state, so it is also the frame and the completion -/

/-- R73: a reserved opcode changes no state; an accepted one completes at the acceptance edge, the host's own write of
`IE` in that cycle apart. The all-zero word is reserved. -/
def Obligations.ReservedOpcodesChangeNothing : Prop :=
  (∀ (x : Byte) (s : State), exec (.reserved0 x) s = .next s ∧ exec (.reserved6 x) s = .next s ∧
    exec (.reserved7 x) s = .next s) ∧
  (∀ (s : State) (i : Instr), s.accepts = some i → i.reserved = true → ∃ t, step s = .next t ∧
    t = { s with ie := if s.input.ieWe then s.input.ieD else s.ie,
                 inputs := s.inputs.tail, cycle := s.cycle + 1 } ∧ t.busy = false) ∧
  (∀ x : Byte, decodeCommand (commandWord 0b000 x) = .reserved0 x ∧ decodeCommand (commandWord 0b110 x) = .reserved6 x ∧
    decodeCommand (commandWord 0b111 x) = .reserved7 x) ∧
  decodeCommand 0x000 = .reserved0 0

/-- R94: INIT writes the pin's level and direction and nothing else, in one cycle, whatever its operand; a second INIT
is harmless; it is never accepted in a frame; and a frame accepted without it runs with the pad at `Z`. -/
def Obligations.InitRaisesAndDrivesThePin : Prop :=
  (∀ (x : Byte) (s : State), exec (.init x) s = .next { s with pinLevel := true, pinDir := true }) ∧
  (∀ (s : State) (x : Byte), s.accepts = some (.init x) → ∃ t, step s = .next t ∧
    t = { s with pinLevel := true, pinDir := true, ie := if s.input.ieWe then s.input.ieD else s.ie,
                 inputs := s.inputs.tail, cycle := s.cycle + 1 } ∧ t.pad = .high ∧ t.cmdReady = true) ∧
  (∀ (x y : Byte) (s t : State), exec (.init x) s = .next t → exec (.init y) t = .next t) ∧
  (∀ s : State, s.busy = true → s.accepts = none) ∧
  (∀ (s : State) (op : TxOp) (b : Byte), s.StartsFrame op b → s.pinDir = false →
    ∃ t, step s = .next t ∧ t.busy = true ∧ t.pad = .z) ∧
  decodeCommand 0x100 = .init 0 ∧ (∀ x : Byte, decodeCommand (commandWord 0b001 x) = .init x)

/-- R100: TX starts a frame, guarded exactly where `FORCE_GUARD` is: in the next cycle the pin is LOW and `busy = 1`. It
is never accepted in a frame. -/
def Obligations.TxStartsAFrameByTheParameter : Prop :=
  (∀ (b : Byte) (s : State), exec (.tx b) s = .next
    { s with txd := b, guardAct := s.cfg.forceGuard, ie := if s.cfg.forceGuard then false else s.ie,
             pinLevel := false, slot := .start, cyc := s.cfg.n - 1 }) ∧
  (∀ (b : Byte) (s : State), s.accepts = some (.tx b) → ∃ t, step s = .next t ∧ t.slot = .start ∧ t.cyc = s.cfg.n - 1 ∧
    t.txd = b ∧ t.guardAct = s.cfg.forceGuard ∧ t.pinLevel = false ∧ t.busy = true ∧
    (s.cfg.forceGuard = true → t.ie = false)) ∧
  (∀ s : State, s.busy = true → s.accepts = none) ∧
  (∀ b : Byte, decodeCommand (commandWord 0b010 b) = .tx b)

/-- R121: TX_GUARDED starts a guarded frame: `IE` is cleared, whatever it was; `GUARD_EN` is neither read nor written. -/
def Obligations.TxGuardedStartsAGuardedFrame : Prop :=
  (∀ (b : Byte) (s : State), exec (.txGuarded b) s = .next
    { s with txd := b, guardAct := true, ie := false, pinLevel := false, slot := .start, cyc := s.cfg.n - 1 }) ∧
  (∀ b : Byte, decodeCommand (commandWord 0b011 b) = .txGuarded b)

/-- R122: TX_AUTO starts a frame by the path that `GUARD_EN` selects now: with the flag it is TX_GUARDED, without it
and without `FORCE_GUARD` it is TX. -/
def Obligations.TxAutoStartsAFrameByTheFlag : Prop :=
  (∀ b : Byte, decodeCommand (commandWord 0b100 b) = .txAuto b) ∧
  ∀ (b : Byte) (s : State),
    exec (.txAuto b) s = .next
      { s with txd := b, guardAct := (s.cfg.forceGuard || s.guardEn),
               ie := if s.cfg.forceGuard || s.guardEn then false else s.ie,
               pinLevel := false, slot := .start, cyc := s.cfg.n - 1 } ∧
    (s.guardEn = true → exec (.txAuto b) s = exec (.txGuarded b) s) ∧
    (s.guardEn = false → s.cfg.forceGuard = false → exec (.txAuto b) s = exec (.tx b) s)

/-- R123: SET_GUARD writes the flag and nothing else, in one cycle and not during a frame; no other command and no
frame changes it. -/
def Obligations.SetGuardAloneWritesTheFlag : Prop :=
  (∀ (v : Bool) (x : BitVec 7) (s : State), exec (.setGuard v x) s = .next { s with guardEn := v }) ∧
  (∀ (s t : State) (v : Bool) (x : BitVec 7), s.accepts = some (.setGuard v x) → step s = .next t →
    t.guardEn = v ∧ t.busy = false ∧ t.guardAct = s.guardAct ∧ t.pinLevel = s.pinLevel ∧ t.pinDir = s.pinDir) ∧
  (∀ s t : State, s.inReset = false → (∀ v x, s.accepts ≠ some (.setGuard v x)) → step s = .next t →
    t.guardEn = s.guardEn) ∧
  (∀ s t : State, s.inReset = true → step s = .next t → t.guardEn = true) ∧
  (∀ s : State, s.busy = true → s.accepts = none) ∧
  (∀ x : Byte, ∃ y, decodeCommand (commandWord 0b101 x) = .setGuard (x.getLsbD 0) y)

/-- R134: INIT, SET_GUARD and the reserved opcodes complete at the acceptance edge, and the port is ready at once. -/
def Obligations.SingleCycleCommandsLeaveThePortReady : Prop :=
  ∀ (s : State) (i : Instr), s.accepts = some i → i.txClass = none →
    ∃ t, step s = .next t ∧ t.slot = .idle ∧ t.busy = false ∧ t.cmdReady = true

/-! ## Pin operations -/

/-- R90: PIN_HOLD changes nothing; it is the operation of every cycle in which neither a slot is entered nor an INIT
accepted, and of every stalled cycle. -/
def Obligations.PinHoldKeepsThePin : Prop :=
  (∀ s : State, exec .pinHold s = .next s) ∧
  (∀ s : State, s.stalled = true → s.issuedPinOp s.input = .hold) ∧
  (∀ s : State, (∀ x, s.accepts ≠ some (.init x)) → (∀ op b, ¬ s.StartsFrame op b) →
    ¬ (s.busy = true ∧ s.cyc = 0 ∧ s.slot ≠ .stop) → s.issuedPinOp s.input = .hold) ∧
  decode (.pinOp 0b00) = .pinHold

/-- R91, R92: PIN_SET_LOW and PIN_SET_HIGH write the level and nothing else; an undriven pad stays `Z`. They are
issued only by the entry to a slot, one that the block was not in before: START or a data slot whose bit is 0, STOP or a
data slot whose bit is 1. -/
def Obligations.PinSetWritesTheLevelAlone : Prop :=
  (∀ s : State, exec .pinSetLow s = .next { s with pinLevel := false } ∧
    exec .pinSetHigh s = .next { s with pinLevel := true }) ∧
  (∀ s t : State, s.pinDir = false → exec .pinSetLow s = .next t ∨ exec .pinSetHigh s = .next t → t.pad = .z) ∧
  (∀ s t : State, s.inReset = false → step s = .next t → s.issuedPinOp s.input = .setLow →
    t.slot ≠ s.slot ∧ (t.slot = .start ∨ ∃ k : Fin 8, t.slot = .data k ∧ dataBit t.txd k.val = false)) ∧
  (∀ s t : State, s.inReset = false → step s = .next t → s.issuedPinOp s.input = .setHigh →
    t.slot ≠ s.slot ∧ (t.slot = .stop ∨ ∃ k : Fin 8, t.slot = .data k ∧ dataBit t.txd k.val = true)) ∧
  decode (.pinOp 0b01) = .pinSetLow ∧ decode (.pinOp 0b10) = .pinSetHigh

/-- R93: PIN_INIT writes level and direction at the same edge, so the pad shows HIGH whatever it showed before; it is
idempotent, and it can occur only while `SLOT = IDLE`. -/
def Obligations.PinInitDrivesHighAtOneEdge : Prop :=
  (∀ s : State, ∃ t, exec .pinInit s = .next t ∧ t = { s with pinLevel := true, pinDir := true } ∧ t.pad = .high ∧
    exec .pinInit t = .next t) ∧
  (∀ s : State, s.issuedPinOp s.input = .init → s.slot = .idle ∧ ∃ x, s.accepts = some (.init x)) ∧
  decode (.pinOp 0b11) = .pinInit

/-- R41 and R90 to R93: in every cycle but a reset cycle the two pin registers change as the one pin operation issued
in it says, and in no other way. -/
def Obligations.PinRegistersFollowTheIssuedOperation : Prop :=
  ∀ s t : State, s.inReset = false → step s = .next t →
    (s.issuedPinOp s.input = .hold → t.pinLevel = s.pinLevel ∧ t.pinDir = s.pinDir) ∧
    (s.issuedPinOp s.input = .setLow → t.pinLevel = false ∧ t.pinDir = s.pinDir) ∧
    (s.issuedPinOp s.input = .setHigh → t.pinLevel = true ∧ t.pinDir = s.pinDir) ∧
    (s.issuedPinOp s.input = .init → t.pinLevel = true ∧ t.pinDir = true)

/-- R28: `PIN_DIR` is set by an accepted INIT alone, cleared by reset alone, is the output `pin_oe`, and says whether the
pad carries `PIN_LEVEL`. -/
def Obligations.PinDirIsSetByInitAndClearedByReset : Prop :=
  (∀ s t : State, s.inReset = false → step s = .next t →
    (t.pinDir = true ↔ s.pinDir = true ∨ ∃ x, s.accepts = some (.init x))) ∧
  (∀ s t : State, s.inReset = true → step s = .next t → t.pinDir = false) ∧
  (∀ (s : State) (i : Inputs), (s.outputs i).pinOe = s.pinDir) ∧
  (∀ s : State, s.pad = if s.pinDir then (if s.pinLevel then .high else .low) else .z)

/-! ## The step -/

/-- A step runs the decoded instruction: the accepted word's command runs on the state after the host's own write of
`IE`, which an idle cycle always honours (R130, R132, R135). -/
def Obligations.StepRunsTheAcceptedCommand : Prop :=
  ∀ (s : State) (w : CommandWord), s.acceptedWord s.input = some w →
    step s = exec (decode (.command w))
      { s with ie := if s.input.ieWe then s.input.ieD else s.ie, inputs := s.inputs.tail, cycle := s.cycle + 1 }

/-- A step runs the issued pin operation in every cycle without an accepted command: at a slot rule on the advanced
sequencer, in a stalled or an idle cycle PIN_HOLD (R41, R135). -/
def Obligations.StepRunsTheIssuedPinOperation : Prop :=
  (∀ s : State, s.inReset = false → s.busy = true → s.stalled = false →
    step s = exec s.slotPinOp.toInstr s.tick.advanceSlot ∧ s.issuedPinOp s.input = s.slotPinOp) ∧
  (∀ s : State, s.inReset = false → s.stalled = true ∨ (s.busy = false ∧ s.input.cmdValid = false) →
    step s = exec .pinHold (s.tick.hostIeWrite s.input))

/-- R137: `Step` is total; no state and no inputs lead to a fault or a refusal; and so a run of any number of steps from
any state answers a next state, the one the statements below call `stateAt`. -/
def Obligations.StepIsTotalAndRunsNeverStop : Prop :=
  (∀ (i : Inputs) (s : State), ∃ t, clockEdge i s = .next t) ∧
  (∀ (s : State) (k : Nat), Host.Core.run Sys2Proof.core k s = .next (s.stateAt k))

/-- R130: the handshake. Ready is idle; a word is accepted exactly when it is presented, the port is ready and there
is no reset; a command presented while the port is not ready has no effect and is not remembered. -/
def Obligations.CommandPortHandshake : Prop :=
  (∀ s : State, s.cmdReady = true ↔ s.slot = .idle) ∧
  (∀ (s : State) (i : Inputs) (w : CommandWord), s.acceptedWord i = some w ↔
    i.cmdValid = true ∧ s.cmdReady = true ∧ i.rst = false ∧ i.cmd = w) ∧
  (∀ (s : State) (i : Inputs) (v : Bool) (w : CommandWord), s.cmdReady = false →
    clockEdge { i with cmdValid := v, cmd := w } s = clockEdge i s) ∧
  (∀ (s : State) (i : Inputs) (w : CommandWord), i.cmdValid = false →
    clockEdge { i with cmd := w } s = clockEdge i s)

/-- R132: the effect of an accepted word, selected by its opcode, for every operand. -/
def Obligations.DispatchSelectsByOpcode : Prop :=
  ∀ (b : Byte) (s : State),
    exec (decodeCommand (commandWord 0b000 b)) s = .next s ∧
    exec (decodeCommand (commandWord 0b001 b)) s = .next { s with pinLevel := true, pinDir := true } ∧
    exec (decodeCommand (commandWord 0b010 b)) s = .next
      { s with txd := b, guardAct := s.cfg.forceGuard, ie := if s.cfg.forceGuard then false else s.ie,
               pinLevel := false, slot := .start, cyc := s.cfg.n - 1 } ∧
    exec (decodeCommand (commandWord 0b011 b)) s = .next
      { s with txd := b, guardAct := true, ie := false, pinLevel := false, slot := .start, cyc := s.cfg.n - 1 } ∧
    exec (decodeCommand (commandWord 0b100 b)) s = .next
      { s with txd := b, guardAct := (s.cfg.forceGuard || s.guardEn),
               ie := if s.cfg.forceGuard || s.guardEn then false else s.ie,
               pinLevel := false, slot := .start, cyc := s.cfg.n - 1 } ∧
    exec (decodeCommand (commandWord 0b101 b)) s = .next { s with guardEn := b.getLsbD 0 } ∧
    exec (decodeCommand (commandWord 0b110 b)) s = .next s ∧
    exec (decodeCommand (commandWord 0b111 b)) s = .next s

/-- R149: the order of the events of one cycle: reset over everything; the host's write of `IE`; stall over the frame;
a guard entry over a host write in the same cycle; and the collisions that cannot happen. -/
def Obligations.EventsOfOneCycleAreOrdered : Prop :=
  (∀ (i j : Inputs) (s : State), i.rst = true → j.rst = true → clockEdge i s = clockEdge j s) ∧
  (∀ s t : State, s.inReset = false → s.stalled = true → step s = .next t →
    t.slot = s.slot ∧ t.cyc = s.cyc ∧ t.pinLevel = s.pinLevel ∧ (s.input.ieWe = true → t.ie = s.input.ieD)) ∧
  (∀ (s t : State) (op : TxOp) (b : Byte), s.StartsFrame op b → guardSelect op s = true → step s = .next t →
    t.ie = false) ∧
  (∀ s : State, s.inReset = false → s.busy = true → s.stalled = false →
    step s = exec s.slotPinOp.toInstr s.tick.advanceSlot) ∧
  (∀ s : State, s.busy = true → s.accepts = none) ∧
  (∀ s : State, s.Inv → s.slot = .stop → s.guardAct = true →
    s.stalled = false ∧ s.ieWriteHonoured s.input = false)

/-- R148: the host's write of `IE` is honoured between frames and in a stalled cycle, and ignored while a frame makes
progress; a handler that clears `IE` ends the stall at the next cycle. -/
def Obligations.HostWritesIeOnlyWhenItsCodeRuns : Prop :=
  (∀ s t : State, s.inReset = false → s.input.ieWe = true → s.busy = false ∨ s.stalled = true →
    (∀ op b, s.StartsFrame op b → guardSelect op s = false) → step s = .next t → t.ie = s.input.ieD) ∧
  (∀ (i : Inputs) (s : State) (d : Bool), s.busy = true → s.stall i = false →
    clockEdge { i with ieWe := true, ieD := d } s = clockEdge { i with ieWe := false } s) ∧
  (∀ s t : State, s.inReset = false → s.stalled = true → s.input.ieWe = true → s.input.ieD = false →
    step s = .next t → t.stalled = false)

/-- R29: `IE` changes only by reset, a host write that is honoured, a guard entry (to 0) or a guard exit (to 1). -/
def Obligations.IeHasFourWriters : Prop :=
  ∀ s t : State, step s = .next t → t.ie ≠ s.ie →
    s.inReset = true ∨
    (s.ieWriteHonoured s.input = true ∧ t.ie = s.input.ieD) ∨
    (t.ie = false ∧ ∃ op b, s.StartsFrame op b ∧ guardSelect op s = true) ∨
    (t.ie = true ∧ s.slot = .stop ∧ s.cyc = 0 ∧ s.guardAct = true ∧ t.slot = .idle)

/-- R156: while idle, `irq` has no effect on any register or output, and the block stays as it is until a command is
accepted (or the host writes `IE`, R148). -/
def Obligations.InterruptsWhileIdleDoNothing : Prop :=
  (∀ (i : Inputs) (r : Bool) (s : State), s.busy = false →
    clockEdge { i with irq := r } s = clockEdge i s ∧ s.outputs { i with irq := r } = s.outputs i ∧
    s.stall i = false) ∧
  (∀ s : State, s.busy = false → s.inReset = false → s.accepts = none → s.input.ieWe = false →
    step s = .next { s with inputs := s.inputs.tail, cycle := s.cycle + 1 })

/-- R136, R95: the outputs of a cycle, of which `cmd_ready` alone says nothing of reset, in which no command is accepted;
and the pad, which is `Z` exactly where the block does not drive it. -/
def Obligations.OutputsOfACycle : Prop :=
  ∀ (s : State) (i : Inputs),
    s.outputs i =
      { cmdReady := decide (s.slot = .idle), busy := decide (s.slot ≠ .idle), pinO := s.pinLevel,
        pinOe := s.pinDir, ie := s.ie, stall := (decide (s.slot ≠ .idle) && i.irq && s.ie) } ∧
    (s.pad = .z ↔ s.pinDir = false) ∧
    (s.pad = .high ↔ s.pinDir = true ∧ s.pinLevel = true) ∧
    (s.pad = .low ↔ s.pinDir = true ∧ s.pinLevel = false) ∧
    (i.rst = true → s.acceptedWord i = none)

/-! ## Slot rules, stall, guard -/

/-- R146: a stalled cycle keeps every register but `IE`, which the host may write; the pin holds, `busy` stays. -/
def Obligations.StalledCycleHoldsTheFrame : Prop :=
  ∀ s : State, s.inReset = false → s.stalled = true → ∃ t, step s = .next t ∧
    t = { s with ie := if s.input.ieWe then s.input.ieD else s.ie, inputs := s.inputs.tail, cycle := s.cycle + 1 } ∧
    s.issuedPinOp s.input = .hold ∧ t.busy = true

/-- R101: count-down inside a slot. -/
def Obligations.CountDownInsideASlot : Prop :=
  ∀ s : State, s.inReset = false → s.busy = true → s.stalled = false → s.cyc ≠ 0 →
    step s = .next { s with cyc := s.cyc - 1, inputs := s.inputs.tail, cycle := s.cycle + 1 } ∧
    s.issuedPinOp s.input = .hold

/-- R102, R103, R104: at a slot's last cycle the next slot is entered with its level and a full count. -/
def Obligations.SlotExitEntersTheNextSlot : Prop :=
  ∀ s : State, s.inReset = false → s.stalled = false → s.cyc = 0 →
    (s.slot = .start → step s = .next
      { s with pinLevel := s.txd.getLsbD 0, slot := .data 0, cyc := s.cfg.n - 1,
               inputs := s.inputs.tail, cycle := s.cycle + 1 } ∧
      s.issuedPinOp s.input = if s.txd.getLsbD 0 then .setHigh else .setLow) ∧
    (∀ (k : Fin 8) (h : k.val + 1 < 8), s.slot = .data k → step s = .next
      { s with pinLevel := s.txd.getLsbD (k.val + 1), slot := .data ⟨k.val + 1, h⟩, cyc := s.cfg.n - 1,
               inputs := s.inputs.tail, cycle := s.cycle + 1 } ∧
      s.issuedPinOp s.input = if s.txd.getLsbD (k.val + 1) then .setHigh else .setLow) ∧
    (s.slot = .data 7 → step s = .next
      { s with pinLevel := true, slot := .stop, cyc := s.cfg.n - 1,
               inputs := s.inputs.tail, cycle := s.cycle + 1 } ∧
      s.issuedPinOp s.input = .setHigh)

/-- R105: the end of the frame, with the guard exit; the level, `TXD` and `CYC` stay. -/
def Obligations.StopExitEndsTheFrame : Prop :=
  ∀ s : State, s.inReset = false → s.stalled = false → s.slot = .stop → s.cyc = 0 →
    step s = .next
      { s with slot := .idle, guardAct := false, ie := if s.guardAct then true else s.ie,
               inputs := s.inputs.tail, cycle := s.cycle + 1 } ∧
    s.issuedPinOp s.input = .hold

/-- R106: there are no other transitions of `SLOT`. Outside reset it leaves IDLE to START at an accepted command of the
TX class, and any other value to its successor at `CYC = 0` in a cycle that is not stalled. -/
def Obligations.SlotHasNoOtherTransitions : Prop :=
  ∀ s t : State, s.inReset = false → step s = .next t →
    (s.slot = .idle → ((∃ op b, s.StartsFrame op b) → t.slot = .start) ∧
      ((∀ op b, ¬ s.StartsFrame op b) → t.slot = .idle)) ∧
    (s.slot ≠ .idle → (s.stalled = true ∨ s.cyc ≠ 0 → t.slot = s.slot) ∧
      (s.stalled = false → s.cyc = 0 → t.slot = s.slot.next))

/-- R22, R26, R28: during a frame, reset apart, the byte, the guard flag and the direction do not change, whatever the
host presents; the path taken is forgotten only at the STOP exit (R25). -/
def Obligations.FrameKeepsItsRegisters : Prop :=
  ∀ s t : State, s.inReset = false → s.busy = true → step s = .next t →
    t.txd = s.txd ∧ t.guardEn = s.guardEn ∧ t.pinDir = s.pinDir ∧
    (t.guardAct = s.guardAct ∨ (t.guardAct = false ∧ s.slot = .stop ∧ s.cyc = 0))

/-- R120: the path of a frame is chosen at acceptance from the opcode, `FORCE_GUARD` and `GUARD_EN` as it is then, is
stored in `GUARD_ACT`, and is not recomputed during the frame. -/
def Obligations.GuardPathIsChosenAtAcceptance : Prop :=
  (∀ s : State, guardSelect .tx s = s.cfg.forceGuard ∧ guardSelect .txGuarded s = true ∧
    guardSelect .txAuto s = (s.cfg.forceGuard || s.guardEn)) ∧
  (∀ (s t : State) (op : TxOp) (b : Byte), s.StartsFrame op b → step s = .next t →
    t.guardAct = guardSelect op s) ∧
  (∀ s t : State, s.inReset = false → s.busy = true → t.busy = true → step s = .next t →
    t.guardAct = s.guardAct)

/-- R126: with `FORCE_GUARD` every frame is guarded, whatever `GUARD_EN` holds; the parameter has no other effect: it
changes neither `N` nor the reset value of `GUARD_EN` nor what SET_GUARD does nor any cycle that starts no frame. -/
def Obligations.ForceGuardGuardsEveryFrame : Prop :=
  (∀ (s : State) (op : TxOp) (b : Byte), s.cfg.forceGuard = true → ∃ t, exec (op.toInstr b) s = .next t ∧
    t.guardAct = true ∧ t.ie = false) ∧
  (∀ (c : Config) (f : Bool), (State.resetOf { c with forceGuard := f }).guardEn = true ∧
    (State.resetOf { c with forceGuard := f }).cfg.n = c.n) ∧
  (∀ (s : State) (f v : Bool) (x : BitVec 7), exec (.setGuard v x) { s with cfg := { s.cfg with forceGuard := f } } =
    .next { s with cfg := { s.cfg with forceGuard := f }, guardEn := v }) ∧
  (∀ (s t : State) (f : Bool), (∀ op b, ¬ s.StartsFrame op b) → step s = .next t →
    step { s with cfg := { s.cfg with forceGuard := f } } = .next { t with cfg := { s.cfg with forceGuard := f } })

/-- R6, R7, R59, R183: no step changes a parameter, and the run-time rules read none but `N`, `FORCE_GUARD` and the
reset values: with any other clock, baud rate, profile, table, pin label and informational count the step does the
same. -/
def Obligations.LinkConfigurationIsFixedAndUnread : Prop :=
  ∀ (s t : State) (c : Config), step s = .next t →
    t.cfg = s.cfg ∧
    (c.n = s.cfg.n → c.forceGuard = s.cfg.forceGuard → c.pinLevelReset = s.cfg.pinLevelReset →
      c.ieReset = s.cfg.ieReset → c.cycReset = s.cfg.cycReset → c.txdReset = s.cfg.txdReset →
      step { s with cfg := c } = .next { t with cfg := c })

/-! ## Invariants -/

/-- The invariant holds in the reset state of every valid configuration, and in `State.reset`, which is the reset state
of a block that R10 lets exist (the model's choices of logs 1 and 19, no rule). -/
def Obligations.InvariantHoldsAtReset : Prop :=
  (∀ (c : Config) (l : List Inputs) (n : Nat), c.valid = true → (State.fromReset c l n).Inv) ∧ State.reset.Inv ∧
  elaborateBlock Config.build = .ok State.reset

/-- Every step, from every state, keeps the invariant. -/
def Obligations.StepKeepsTheInvariant : Prop :=
  ∀ s t : State, s.Inv → step s = .next t → t.Inv

/-- R47: in every state reachable from reset, (a) to (f), since the last reset. -/
def Obligations.ReachableStatesMeetTheStateInvariants : Prop :=
  ∀ (c : Config) (l : List Inputs) (n k : Nat), c.valid = true → (State.fromReset c l n).ResetFree k →
    let run := (State.fromReset c l n).stateAt
    let s := run k
    (s.slot.code.toNat ≤ 10) ∧
    (s.slot ≠ .idle → s.cyc ≤ s.cfg.n - 1) ∧
    (s.guardAct = true → s.slot ≠ .idle ∧ s.ie = false) ∧
    (s.slot = .start → s.pinLevel = false) ∧
    (∀ d : Fin 8, s.slot = .data d → s.pinLevel = s.txd.getLsbD d.val) ∧
    (s.slot = .stop → s.pinLevel = true) ∧
    (s.slot = .idle →
      (∃ j < k, (∃ x, (run j).accepts = some (.init x)) ∨ (State.fromReset c l n).CompletesFrame j) →
      s.pinLevel = true) ∧
    (s.pinDir = true ↔ ∃ j < k, ∃ x, (run j).accepts = some (.init x))

/-! ## Frames over many cycles; cycle 0 is the cycle of acceptance -/

/-- Where a frame stands after `p` cycles that were not stalled: in slot `p / N`, at that slot's level, with `p % N`
cycles of it gone (R100 to R105, R146). -/
def Obligations.FramePositionCountsUnstalledCycles : Prop :=
  ∀ (s : State) (op : TxOp) (b : Byte) (k : Nat), 2 ≤ s.cfg.n → s.StartsFrame op b → 1 ≤ k → s.ResetFree k →
    s.progress k < 10 * s.cfg.n →
    (s.stateAt k).slot.code.toNat = s.progress k / s.cfg.n + 1 ∧
    (s.stateAt k).pinLevel = frameBit b (s.progress k / s.cfg.n) ∧
    (s.stateAt k).cyc = s.cfg.n - 1 - s.progress k % s.cfg.n ∧
    (s.stateAt k).txd = b

/-- R109: the waveform of an unstalled frame, cycle by cycle, on the level register and on a driven pad, and the idle
level after it. -/
def Obligations.UnstalledFrameWaveform : Prop :=
  ∀ (s : State) (op : TxOp) (b : Byte), 2 ≤ s.cfg.n → s.StartsFrame op b →
    (∀ i < 10, ∀ c, 1 + i * s.cfg.n ≤ c → c ≤ (i + 1) * s.cfg.n → s.ResetFree c → s.StallFree c →
      (s.stateAt c).pinLevel = frameBit b i ∧ (s.stateAt c).slot.code.toNat = i + 1 ∧
      (s.pinDir = true → (s.stateAt c).pad = if frameBit b i then .high else .low)) ∧
    (s.ResetFree (10 * s.cfg.n + 1) → s.StallFree (10 * s.cfg.n + 1) →
      (s.stateAt (10 * s.cfg.n + 1)).slot = .idle ∧ (s.stateAt (10 * s.cfg.n + 1)).pinLevel = true)

/-- R108: an unstalled frame keeps `busy = 1` in exactly the cycles 1 to `10 * N`; a frame that is over at cycle `K` and
was stalled `x` cycles kept it for `10 * N + x` cycles. -/
def Obligations.FrameDuration : Prop :=
  ∀ (s : State) (op : TxOp) (b : Byte), 2 ≤ s.cfg.n → s.StartsFrame op b →
    (s.ResetFree (10 * s.cfg.n + 1) → s.StallFree (10 * s.cfg.n + 1) →
      (∀ k, 1 ≤ k → k ≤ 10 * s.cfg.n → (s.stateAt k).busy = true) ∧
      (s.stateAt (10 * s.cfg.n + 1)).slot = .idle) ∧
    (∀ K, 1 ≤ K → s.ResetFree K → (∀ j, 1 ≤ j → j < K → (s.stateAt j).busy = true) →
      (s.stateAt K).busy = false → K - 1 = 10 * s.cfg.n + s.stallCount K)

/-- R116: the waveform of a stalled frame that is over at cycle `K`: slot `i` lasts `N + s_i` consecutive cycles at its
level, the slots follow one another without a gap, and `busy` lasts `10 * N` and all the `s_i`. -/
def Obligations.StalledFrameWaveform : Prop :=
  ∀ (s : State) (op : TxOp) (b : Byte) (K : Nat), 2 ≤ s.cfg.n → s.StartsFrame op b → 1 ≤ K → s.ResetFree K →
    (∀ j, 1 ≤ j → j < K → (s.stateAt j).busy = true) → (s.stateAt K).busy = false →
    (∀ i < 10, ∀ c,
      1 + i * s.cfg.n + ((List.range i).map (fun m => s.stallsInSlot m K)).sum ≤ c →
      c < 1 + (i + 1) * s.cfg.n + ((List.range (i + 1)).map (fun m => s.stallsInSlot m K)).sum →
      (s.stateAt c).slot.code.toNat = i + 1 ∧ (s.stateAt c).pinLevel = frameBit b i) ∧
    K = 1 + 10 * s.cfg.n + ((List.range 10).map (fun m => s.stallsInSlot m K)).sum

/-- R127: in a guarded frame no cycle is stalled, whatever the host does with `irq`, `ie_we` and `ie_d`; its waveform
and its duration are those of an unstalled frame. -/
def Obligations.GuardedFrameIsNeverStalled : Prop :=
  ∀ (s : State) (op : TxOp) (b : Byte), 2 ≤ s.cfg.n → s.StartsFrame op b → guardSelect op s = true →
    (∀ c, 1 ≤ c → c ≤ 10 * s.cfg.n → s.ResetFree c →
      (s.stateAt c).guardAct = true ∧ (s.stateAt c).ie = false ∧ (s.stateAt c).stalled = false ∧
      (s.stateAt c).pinLevel = frameBit b ((c - 1) / s.cfg.n) ∧
      (s.stateAt c).slot.code.toNat = (c - 1) / s.cfg.n + 1) ∧
    (s.ResetFree (10 * s.cfg.n + 1) → (s.stateAt (10 * s.cfg.n + 1)).slot = .idle)

/-- R62, R125, R172: on the guarded path `IE` is 0 from the start edge through the last busy cycle and 1 at the edge at
which `SLOT` becomes IDLE, `N` cycles after the stop slot's rise, whatever `IE` was before the frame. -/
def Obligations.GuardedFrameEndsWithInterruptsEnabled : Prop :=
  ∀ (s : State) (op : TxOp) (b : Byte), 2 ≤ s.cfg.n → s.StartsFrame op b → guardSelect op s = true →
    ((s.stateAt 1).ie = false ∧ (s.stateAt 1).pinLevel = false ∧ (s.stateAt 1).slot = .start) ∧
    (s.ResetFree (10 * s.cfg.n + 1) →
      (∀ c, 1 ≤ c → c ≤ 10 * s.cfg.n → (s.stateAt c).busy = true ∧ (s.stateAt c).ie = false) ∧
      ((s.stateAt (9 * s.cfg.n + 1)).slot = .stop ∧ (s.stateAt (9 * s.cfg.n + 1)).pinLevel = true) ∧
      ((s.stateAt (10 * s.cfg.n + 1)).ie = true ∧ (s.stateAt (10 * s.cfg.n + 1)).slot = .idle))

/-- R107: timing does not depend on the data. Two blocks that differ only in the byte in flight, the pin's level and the
bytes of the commands to come agree in every cycle on everything but the byte and the level. -/
def Obligations.TimingIsIndependentOfTheData : Prop :=
  ∀ (s t : State) (k : Nat), SameTiming s t → SameTiming (s.stateAt k) (t.stateAt k)

/-- R22, R23, U3: while idle nothing depends on `TXD` and `CYC`: whatever they hold, every later cycle has the same
outputs and the same pad. -/
def Obligations.IdleTxdAndCycAreUnread : Prop :=
  ∀ (s : State) (x : Byte) (y k : Nat), s.slot = .idle →
    (({ s with txd := x, cyc := y } : State).stateAt k).outputs (s.inputAt k) =
      (s.stateAt k).outputs (s.inputAt k) ∧
    (({ s with txd := x, cyc := y } : State).stateAt k).pad = (s.stateAt k).pad

/-- R45: the level register is hidden while `PIN_DIR = 0`: the pad is `Z` until INIT makes it HIGH, and so never shows a
level written before, nor `PIN_LEVEL_RESET`, whatever the host does from reset on. -/
def Obligations.PadNeverShowsTheResetLevel : Prop :=
  (∀ s t : State, s.inReset = false → s.pinDir = false → step s = .next t →
    s.pad = .z ∧ (t.pad = .z ∨ (t.pad = .high ∧ ∃ x, s.accepts = some (.init x)))) ∧
  (∀ (c : Config) (v : Bool) (l : List Inputs) (n k : Nat),
    ((State.fromReset { c with pinLevelReset := v } l n).stateAt k).pad = ((State.fromReset c l n).stateAt k).pad)

/-- R110: the falling edge ends the cycle of acceptance, within one bit period of the call; on a driven line in a state
that meets the invariant it falls from HIGH. -/
def Obligations.StartEdgeEndsTheAcceptanceCycle : Prop :=
  ∀ (s t : State) (op : TxOp) (b : Byte), 2 ≤ s.cfg.n → s.StartsFrame op b → step s = .next t →
    t.pinLevel = false ∧ t.busy = true ∧ 1 < s.cfg.n ∧
    (s.Inv → s.pinDir = true → s.pad = .high ∧ t.pad = .low)

/-- R111: in a frame that is over at cycle `K` the stop slot takes at least the `N` cycles before `K`, the line is HIGH
in them and in the idle cycle `K`, at least `N + 1` cycles, and a command of the TX class waiting at `K` ends that; in an
unstalled frame the stop slot is exactly the `N` cycles before, so that the line is HIGH exactly `N + 1` cycles. -/
def Obligations.GapBetweenFrames : Prop :=
  ∀ (s : State) (op : TxOp) (b : Byte) (K : Nat), 2 ≤ s.cfg.n → s.StartsFrame op b → 1 ≤ K → s.ResetFree (K + 1) →
    (∀ j, 1 ≤ j → j < K → (s.stateAt j).busy = true) → (s.stateAt K).busy = false →
    (s.cfg.n < K ∧ ∀ c, K - s.cfg.n ≤ c → c < K → (s.stateAt c).slot = .stop ∧ (s.stateAt c).pinLevel = true) ∧
    (s.stateAt K).slot = .idle ∧ (s.stateAt K).pinLevel = true ∧
    (∀ op' b', (s.stateAt K).StartsFrame op' b' → (s.stateAt (K + 1)).pinLevel = false) ∧
    (s.StallFree K → K = 10 * s.cfg.n + 1 ∧ (s.stateAt (K - s.cfg.n - 1)).slot = .data 7 ∧
      (s.stateAt (K - s.cfg.n - 1)).pinLevel = b.getLsbD 7)

/-- R176, R179, R180: two frames of one run are accepted at least `10 * N + 1` cycles apart, plus one for each stalled
cycle between, so that the second is accepted after the first is over, stalled or not. -/
def Obligations.FramesNeverOverlap : Prop :=
  ∀ (s : State) (op op' : TxOp) (b b' : Byte) (k : Nat), 2 ≤ s.cfg.n → s.StartsFrame op b → 1 ≤ k → s.ResetFree k →
    (s.stateAt k).StartsFrame op' b' → 10 * s.cfg.n + s.stallCount k + 1 ≤ k

/-- R174: a command held through an unstalled frame is accepted in the first idle cycle, `10 * N + 1` cycles after the
frame's own command, and in none before. -/
def Obligations.HeldCommandWaitsForTheFrame : Prop :=
  ∀ (s : State) (op : TxOp) (b : Byte) (w : CommandWord), 2 ≤ s.cfg.n → s.StartsFrame op b →
    s.ResetFree (10 * s.cfg.n + 2) → s.StallFree (10 * s.cfg.n + 1) →
    (∀ j, 1 ≤ j → j ≤ 10 * s.cfg.n + 1 → (s.inputAt j).cmdValid = true ∧ (s.inputAt j).cmd = w) →
    (∀ j, 1 ≤ j → j ≤ 10 * s.cfg.n → (s.stateAt j).accepts = none) ∧
    (s.stateAt (10 * s.cfg.n + 1)).accepts = some (decodeCommand w)

/-- R114: a frame accepted before INIT runs like any other, in everything but the direction, and the pad is `Z`
throughout. -/
def Obligations.FrameBeforeInitIsNotDriven : Prop :=
  ∀ (s : State) (op : TxOp) (b : Byte) (k : Nat), s.StartsFrame op b → s.pinDir = false → s.ResetFree k →
    (∀ j, 1 ≤ j → j < k → (s.stateAt j).busy = true) →
    (s.stateAt k).pad = .z ∧
    ({ s with pinDir := true } : State).stateAt k = { s.stateAt k with pinDir := true }

/-- R147, R173, R175: while `irq` and `IE` stay 1 the frame does not move and no command is accepted; in the first cycle
without a stall it goes on from the same slot and the same count. -/
def Obligations.StalledFrameWaitsForEver : Prop :=
  (∀ (s : State) (k : Nat), s.busy = true → s.ie = true →
    (∀ j < k, (s.inputAt j).rst = false ∧ (s.inputAt j).irq = true ∧
      ((s.inputAt j).ieWe = true → (s.inputAt j).ieD = true)) →
    s.stateAt k = { s with inputs := s.inputs.drop k, cycle := s.cycle + k } ∧
    (∀ j < k, (s.stateAt j).accepts = none)) ∧
  (∀ (s : State) (k : Nat), (∀ j < k, (s.stateAt j).inReset = false ∧ (s.stateAt j).stalled = true) →
    (s.stateAt k).slot = s.slot ∧ (s.stateAt k).cyc = s.cyc ∧ (s.stateAt k).txd = s.txd ∧
    (s.stateAt k).guardAct = s.guardAct ∧ (s.stateAt k).guardEn = s.guardEn ∧
    (s.stateAt k).pinLevel = s.pinLevel ∧ (s.stateAt k).pinDir = s.pinDir)

/-! ## Encodings -/

/-- Every instruction, with every operand and every ignored bit, is what its word decodes to. That an instruction keeps the
bits its command ignores is the model's choice (log 14, DESIGN CHOICE); the spec allows dropping them (R72). -/
def Obligations.DecodeOfEncodeIsTheInstruction : Prop :=
  ∀ i : Instr, decode (encode i) = i

/-- Every word has one instruction, and no bit of the word is dropped. That ignored bits are kept too is the model's choice
(log 14, DESIGN CHOICE): R72 ignores them and R81 encodes them as 0, so a decoder that drops them is allowed. -/
def Obligations.EncodeOfDecodeIsTheWord : Prop :=
  ∀ e : Encoded, encode (decode e) = e

/-- R81: `INIT` is 0x100, `TX b` is 0x200 | b, `TX_GUARDED b` 0x300 | b, `TX_AUTO b` 0x400 | b, `SET_GUARD v`
0x500 | v. -/
def Obligations.CommandsHaveTheirListedWords : Prop :=
  encode (.init 0) = .command 0x100 ∧
  (∀ b : Byte, encode (.tx b) = .command (0x200 ||| b.setWidth 11) ∧
    encode (.txGuarded b) = .command (0x300 ||| b.setWidth 11) ∧
    encode (.txAuto b) = .command (0x400 ||| b.setWidth 11)) ∧
  (∀ v : Bool, encode (.setGuard v 0) = .command (0x500 ||| (BitVec.ofBool v).setWidth 11))

/-- Words written out from R71, R72 and R74 decode to the instructions they stand for; that the ignored bits of some of
them are kept in the instruction is the model's choice (log 14). -/
def Obligations.WrittenWordsDecodeAsTheSpecLists : Prop :=
  decode (.command 0b00011111111#11) = .reserved0 0xFF ∧
  decode (.command 0b00100000000#11) = .init 0 ∧
  decode (.command 0b01001011010#11) = .tx 0x5A ∧
  decode (.command 0b01101000010#11) = .txGuarded 0x42 ∧
  decode (.command 0b10001000001#11) = .txAuto 0x41 ∧
  decode (.command 0b10111111110#11) = .setGuard false 0x7F ∧
  decode (.command 0b10100000001#11) = .setGuard true 0 ∧
  decode (.command 0b11000000000#11) = .reserved6 0 ∧
  decode (.command 0b11111111111#11) = .reserved7 0xFF ∧
  decode (.pinOp 0b00#2) = .pinHold ∧ decode (.pinOp 0b01#2) = .pinSetLow ∧
  decode (.pinOp 0b10#2) = .pinSetHigh ∧ decode (.pinOp 0b11#2) = .pinInit

/-- R75: the slot codes, the successor of every slot of a frame, and the level driven in it. -/
def Obligations.SlotCodesAreInVisitingOrder : Prop :=
  (Slot.code .idle = 0 ∧ Slot.code .start = 1 ∧ (∀ k : Fin 8, (Slot.code (.data k)).toNat = 2 + k.val) ∧
    Slot.code .stop = 10) ∧
  (∀ sl : Slot, sl ≠ .idle → sl ≠ .stop → (Slot.code sl.next).toNat = (Slot.code sl).toNat + 1) ∧
  Slot.next .stop = .idle ∧
  (∀ txd : Byte, slotLevel .start txd = some false ∧
    (∀ k : Fin 8, slotLevel (.data k) txd = some (txd.getLsbD k.val)) ∧ slotLevel .stop txd = some true)

/-- R78: the level of slot `i` is bit `i` of `F = {1, b[7:0], 0} = 0x200 | (b << 1)`. -/
def Obligations.FrameBitsAreTheFrameWord : Prop :=
  ∀ b : Byte, frameWord b = 0x200 ||| (b.setWidth 10 <<< 1) ∧
    (∀ i < 10, (frameWord b).getLsbD i = frameBit b i) ∧
    frameBit b 0 = false ∧ (∀ k < 8, frameBit b (1 + k) = b.getLsbD k) ∧ frameBit b 9 = true
end

