-- ==== Sys2Proof/Laws/State.lean ====
section
/-! SUPPORT. What each named update of State leaves in each field: one lemma a field, true by unfolding, so that no
proof unfolds a record update. -/

namespace Sys2Proof.Machine

variable (s : State)

/-! `State.tick` -/

@[simp] theorem State.tick_slot : (s.tick).slot = s.slot := rfl
@[simp] theorem State.tick_cyc : (s.tick).cyc = s.cyc := rfl
@[simp] theorem State.tick_txd : (s.tick).txd = s.txd := rfl
@[simp] theorem State.tick_guardAct : (s.tick).guardAct = s.guardAct := rfl
@[simp] theorem State.tick_guardEn : (s.tick).guardEn = s.guardEn := rfl
@[simp] theorem State.tick_pinLevel : (s.tick).pinLevel = s.pinLevel := rfl
@[simp] theorem State.tick_pinDir : (s.tick).pinDir = s.pinDir := rfl
@[simp] theorem State.tick_ie : (s.tick).ie = s.ie := rfl
@[simp] theorem State.tick_cfg : (s.tick).cfg = s.cfg := rfl
@[simp] theorem State.tick_inputs : (s.tick).inputs = s.inputs.tail := rfl
@[simp] theorem State.tick_cycle : (s.tick).cycle = s.cycle + 1 := rfl

/-! `State.enterSlot` -/

@[simp] theorem State.enterSlot_slot (sl : Slot) : (s.enterSlot sl).slot = sl := rfl
@[simp] theorem State.enterSlot_cyc (sl : Slot) : (s.enterSlot sl).cyc = s.cfg.n - 1 := rfl
@[simp] theorem State.enterSlot_txd (sl : Slot) : (s.enterSlot sl).txd = s.txd := rfl
@[simp] theorem State.enterSlot_guardAct (sl : Slot) : (s.enterSlot sl).guardAct = s.guardAct := rfl
@[simp] theorem State.enterSlot_guardEn (sl : Slot) : (s.enterSlot sl).guardEn = s.guardEn := rfl
@[simp] theorem State.enterSlot_pinLevel (sl : Slot) : (s.enterSlot sl).pinLevel = s.pinLevel := rfl
@[simp] theorem State.enterSlot_pinDir (sl : Slot) : (s.enterSlot sl).pinDir = s.pinDir := rfl
@[simp] theorem State.enterSlot_ie (sl : Slot) : (s.enterSlot sl).ie = s.ie := rfl
@[simp] theorem State.enterSlot_cfg (sl : Slot) : (s.enterSlot sl).cfg = s.cfg := rfl
@[simp] theorem State.enterSlot_inputs (sl : Slot) : (s.enterSlot sl).inputs = s.inputs := rfl
@[simp] theorem State.enterSlot_cycle (sl : Slot) : (s.enterSlot sl).cycle = s.cycle := rfl

/-! `State.guardEntry` -/

@[simp] theorem State.guardEntry_slot (g : Bool) : (s.guardEntry g).slot = s.slot := rfl
@[simp] theorem State.guardEntry_cyc (g : Bool) : (s.guardEntry g).cyc = s.cyc := rfl
@[simp] theorem State.guardEntry_txd (g : Bool) : (s.guardEntry g).txd = s.txd := rfl
@[simp] theorem State.guardEntry_guardAct (g : Bool) : (s.guardEntry g).guardAct = s.guardAct := rfl
@[simp] theorem State.guardEntry_guardEn (g : Bool) : (s.guardEntry g).guardEn = s.guardEn := rfl
@[simp] theorem State.guardEntry_pinLevel (g : Bool) : (s.guardEntry g).pinLevel = s.pinLevel := rfl
@[simp] theorem State.guardEntry_pinDir (g : Bool) : (s.guardEntry g).pinDir = s.pinDir := rfl
@[simp] theorem State.guardEntry_ie (g : Bool) : (s.guardEntry g).ie = if g then false else s.ie := rfl
@[simp] theorem State.guardEntry_cfg (g : Bool) : (s.guardEntry g).cfg = s.cfg := rfl
@[simp] theorem State.guardEntry_inputs (g : Bool) : (s.guardEntry g).inputs = s.inputs := rfl
@[simp] theorem State.guardEntry_cycle (g : Bool) : (s.guardEntry g).cycle = s.cycle := rfl

/-! `State.guardExit` -/

@[simp] theorem State.guardExit_slot : (s.guardExit).slot = s.slot := rfl
@[simp] theorem State.guardExit_cyc : (s.guardExit).cyc = s.cyc := rfl
@[simp] theorem State.guardExit_txd : (s.guardExit).txd = s.txd := rfl
@[simp] theorem State.guardExit_guardAct : (s.guardExit).guardAct = s.guardAct := rfl
@[simp] theorem State.guardExit_guardEn : (s.guardExit).guardEn = s.guardEn := rfl
@[simp] theorem State.guardExit_pinLevel : (s.guardExit).pinLevel = s.pinLevel := rfl
@[simp] theorem State.guardExit_pinDir : (s.guardExit).pinDir = s.pinDir := rfl
@[simp] theorem State.guardExit_ie : (s.guardExit).ie = if s.guardAct then true else s.ie := rfl
@[simp] theorem State.guardExit_cfg : (s.guardExit).cfg = s.cfg := rfl
@[simp] theorem State.guardExit_inputs : (s.guardExit).inputs = s.inputs := rfl
@[simp] theorem State.guardExit_cycle : (s.guardExit).cycle = s.cycle := rfl

/-! `State.startFrame` -/

@[simp] theorem State.startFrame_slot (b : Byte) (g : Bool) : (s.startFrame b g).slot = .start := rfl
@[simp] theorem State.startFrame_cyc (b : Byte) (g : Bool) : (s.startFrame b g).cyc = s.cfg.n - 1 := rfl
@[simp] theorem State.startFrame_txd (b : Byte) (g : Bool) : (s.startFrame b g).txd = b := rfl
@[simp] theorem State.startFrame_guardAct (b : Byte) (g : Bool) : (s.startFrame b g).guardAct = g := rfl
@[simp] theorem State.startFrame_guardEn (b : Byte) (g : Bool) : (s.startFrame b g).guardEn = s.guardEn := rfl
@[simp] theorem State.startFrame_pinLevel (b : Byte) (g : Bool) : (s.startFrame b g).pinLevel = false := rfl
@[simp] theorem State.startFrame_pinDir (b : Byte) (g : Bool) : (s.startFrame b g).pinDir = s.pinDir := rfl
@[simp] theorem State.startFrame_ie (b : Byte) (g : Bool) : (s.startFrame b g).ie = if g then false else s.ie := rfl
@[simp] theorem State.startFrame_cfg (b : Byte) (g : Bool) : (s.startFrame b g).cfg = s.cfg := rfl
@[simp] theorem State.startFrame_inputs (b : Byte) (g : Bool) : (s.startFrame b g).inputs = s.inputs := rfl
@[simp] theorem State.startFrame_cycle (b : Byte) (g : Bool) : (s.startFrame b g).cycle = s.cycle := rfl

/-! `State.countDown` -/

@[simp] theorem State.countDown_slot : (s.countDown).slot = s.slot := rfl
@[simp] theorem State.countDown_cyc : (s.countDown).cyc = s.cyc - 1 := rfl
@[simp] theorem State.countDown_txd : (s.countDown).txd = s.txd := rfl
@[simp] theorem State.countDown_guardAct : (s.countDown).guardAct = s.guardAct := rfl
@[simp] theorem State.countDown_guardEn : (s.countDown).guardEn = s.guardEn := rfl
@[simp] theorem State.countDown_pinLevel : (s.countDown).pinLevel = s.pinLevel := rfl
@[simp] theorem State.countDown_pinDir : (s.countDown).pinDir = s.pinDir := rfl
@[simp] theorem State.countDown_ie : (s.countDown).ie = s.ie := rfl
@[simp] theorem State.countDown_cfg : (s.countDown).cfg = s.cfg := rfl
@[simp] theorem State.countDown_inputs : (s.countDown).inputs = s.inputs := rfl
@[simp] theorem State.countDown_cycle : (s.countDown).cycle = s.cycle := rfl

/-! `State.endFrame` -/

@[simp] theorem State.endFrame_slot : (s.endFrame).slot = .idle := rfl
@[simp] theorem State.endFrame_cyc : (s.endFrame).cyc = s.cyc := rfl
@[simp] theorem State.endFrame_txd : (s.endFrame).txd = s.txd := rfl
@[simp] theorem State.endFrame_guardAct : (s.endFrame).guardAct = false := rfl
@[simp] theorem State.endFrame_guardEn : (s.endFrame).guardEn = s.guardEn := rfl
@[simp] theorem State.endFrame_pinLevel : (s.endFrame).pinLevel = s.pinLevel := rfl
@[simp] theorem State.endFrame_pinDir : (s.endFrame).pinDir = s.pinDir := rfl
@[simp] theorem State.endFrame_ie : (s.endFrame).ie = if s.guardAct then true else s.ie := rfl
@[simp] theorem State.endFrame_cfg : (s.endFrame).cfg = s.cfg := rfl
@[simp] theorem State.endFrame_inputs : (s.endFrame).inputs = s.inputs := rfl
@[simp] theorem State.endFrame_cycle : (s.endFrame).cycle = s.cycle := rfl

/-! `State.setGuardEn` -/

@[simp] theorem State.setGuardEn_slot (v : Bool) : (s.setGuardEn v).slot = s.slot := rfl
@[simp] theorem State.setGuardEn_cyc (v : Bool) : (s.setGuardEn v).cyc = s.cyc := rfl
@[simp] theorem State.setGuardEn_txd (v : Bool) : (s.setGuardEn v).txd = s.txd := rfl
@[simp] theorem State.setGuardEn_guardAct (v : Bool) : (s.setGuardEn v).guardAct = s.guardAct := rfl
@[simp] theorem State.setGuardEn_guardEn (v : Bool) : (s.setGuardEn v).guardEn = v := rfl
@[simp] theorem State.setGuardEn_pinLevel (v : Bool) : (s.setGuardEn v).pinLevel = s.pinLevel := rfl
@[simp] theorem State.setGuardEn_pinDir (v : Bool) : (s.setGuardEn v).pinDir = s.pinDir := rfl
@[simp] theorem State.setGuardEn_ie (v : Bool) : (s.setGuardEn v).ie = s.ie := rfl
@[simp] theorem State.setGuardEn_cfg (v : Bool) : (s.setGuardEn v).cfg = s.cfg := rfl
@[simp] theorem State.setGuardEn_inputs (v : Bool) : (s.setGuardEn v).inputs = s.inputs := rfl
@[simp] theorem State.setGuardEn_cycle (v : Bool) : (s.setGuardEn v).cycle = s.cycle := rfl

/-! `State.hostIeWrite` -/

@[simp] theorem State.hostIeWrite_slot (i : Inputs) : (s.hostIeWrite i).slot = s.slot := rfl
@[simp] theorem State.hostIeWrite_cyc (i : Inputs) : (s.hostIeWrite i).cyc = s.cyc := rfl
@[simp] theorem State.hostIeWrite_txd (i : Inputs) : (s.hostIeWrite i).txd = s.txd := rfl
@[simp] theorem State.hostIeWrite_guardAct (i : Inputs) : (s.hostIeWrite i).guardAct = s.guardAct := rfl
@[simp] theorem State.hostIeWrite_guardEn (i : Inputs) : (s.hostIeWrite i).guardEn = s.guardEn := rfl
@[simp] theorem State.hostIeWrite_pinLevel (i : Inputs) : (s.hostIeWrite i).pinLevel = s.pinLevel := rfl
@[simp] theorem State.hostIeWrite_pinDir (i : Inputs) : (s.hostIeWrite i).pinDir = s.pinDir := rfl
@[simp] theorem State.hostIeWrite_ie (i : Inputs) : (s.hostIeWrite i).ie = if s.ieWriteHonoured i then i.ieD else s.ie := rfl
@[simp] theorem State.hostIeWrite_cfg (i : Inputs) : (s.hostIeWrite i).cfg = s.cfg := rfl
@[simp] theorem State.hostIeWrite_inputs (i : Inputs) : (s.hostIeWrite i).inputs = s.inputs := rfl
@[simp] theorem State.hostIeWrite_cycle (i : Inputs) : (s.hostIeWrite i).cycle = s.cycle := rfl

/-! `State.toReset` -/

@[simp] theorem State.toReset_slot : (s.toReset).slot = .idle := rfl
@[simp] theorem State.toReset_cyc : (s.toReset).cyc = s.cfg.cycReset % 2 ^ s.cfg.cycWidth := rfl
@[simp] theorem State.toReset_txd : (s.toReset).txd = s.cfg.txdReset := rfl
@[simp] theorem State.toReset_guardAct : (s.toReset).guardAct = false := rfl
@[simp] theorem State.toReset_guardEn : (s.toReset).guardEn = true := rfl
@[simp] theorem State.toReset_pinLevel : (s.toReset).pinLevel = s.cfg.pinLevelReset := rfl
@[simp] theorem State.toReset_pinDir : (s.toReset).pinDir = false := rfl
@[simp] theorem State.toReset_ie : (s.toReset).ie = s.cfg.ieReset := rfl
@[simp] theorem State.toReset_cfg : (s.toReset).cfg = s.cfg := rfl
@[simp] theorem State.toReset_inputs : (s.toReset).inputs = s.inputs := rfl
@[simp] theorem State.toReset_cycle : (s.toReset).cycle = s.cycle := rfl

/-! `State.pinOp`: only the level and the direction of the pin change (R90 to R93). -/

@[simp] theorem State.pinOp_slot (p : PinOp) : (s.pinOp p).slot = s.slot := by cases p <;> rfl
@[simp] theorem State.pinOp_cyc (p : PinOp) : (s.pinOp p).cyc = s.cyc := by cases p <;> rfl
@[simp] theorem State.pinOp_txd (p : PinOp) : (s.pinOp p).txd = s.txd := by cases p <;> rfl
@[simp] theorem State.pinOp_guardAct (p : PinOp) : (s.pinOp p).guardAct = s.guardAct := by cases p <;> rfl
@[simp] theorem State.pinOp_guardEn (p : PinOp) : (s.pinOp p).guardEn = s.guardEn := by cases p <;> rfl
@[simp] theorem State.pinOp_ie (p : PinOp) : (s.pinOp p).ie = s.ie := by cases p <;> rfl
@[simp] theorem State.pinOp_cfg (p : PinOp) : (s.pinOp p).cfg = s.cfg := by cases p <;> rfl
@[simp] theorem State.pinOp_inputs (p : PinOp) : (s.pinOp p).inputs = s.inputs := by cases p <;> rfl
@[simp] theorem State.pinOp_cycle (p : PinOp) : (s.pinOp p).cycle = s.cycle := by cases p <;> rfl

@[simp] theorem State.pinOp_hold_pinLevel : (s.pinOp .hold).pinLevel = s.pinLevel := rfl
@[simp] theorem State.pinOp_hold_pinDir : (s.pinOp .hold).pinDir = s.pinDir := rfl
@[simp] theorem State.pinOp_setLow_pinLevel : (s.pinOp .setLow).pinLevel = false := rfl
@[simp] theorem State.pinOp_setLow_pinDir : (s.pinOp .setLow).pinDir = s.pinDir := rfl
@[simp] theorem State.pinOp_setHigh_pinLevel : (s.pinOp .setHigh).pinLevel = true := rfl
@[simp] theorem State.pinOp_setHigh_pinDir : (s.pinOp .setHigh).pinDir = s.pinDir := rfl
@[simp] theorem State.pinOp_init_pinLevel : (s.pinOp .init).pinLevel = true := rfl
@[simp] theorem State.pinOp_init_pinDir : (s.pinOp .init).pinDir = true := rfl

end Sys2Proof.Machine
end

