-- ==== Sys2Proof/Laws/Ops.lean ====
section
/-! SUPPORT. One lemma for each shared operation: what it answers, as a record, or as the cases it has. -/

namespace Sys2Proof.Machine

/-! Signals -/

theorem State.busy_iff (s : State) : s.busy = true ↔ s.slot ≠ .idle := by
  unfold State.busy; cases s.slot <;> simp

theorem State.not_busy_iff (s : State) : s.busy = false ↔ s.slot = .idle := by
  unfold State.busy; cases s.slot <;> simp

/-- `busy` reads nothing but `SLOT`. -/
theorem State.busy_congr {s t : State} (h : s.slot = t.slot) : s.busy = t.busy := by
  unfold State.busy; rw [h]

@[simp] theorem State.tick_busy (s : State) : s.tick.busy = s.busy := rfl
@[simp] theorem State.tick_stall (i : Inputs) (s : State) : s.tick.stall i = s.stall i := rfl
@[simp] theorem State.tick_ieWriteHonoured (i : Inputs) (s : State) :
    s.tick.ieWriteHonoured i = s.ieWriteHonoured i := rfl

@[simp] theorem State.tick_slotPinOp (s : State) : s.tick.slotPinOp = s.slotPinOp := rfl

theorem State.stall_iff (i : Inputs) (s : State) :
    s.stall i = true ↔ s.busy = true ∧ i.irq = true ∧ s.ie = true := by
  simp [State.stall, and_assoc]

/-- In a cycle with a command accepted the block is idle, so the host's write of `IE` is honoured. -/
theorem State.acceptedWord_eq_some {i : Inputs} {s : State} {w : CommandWord} :
    s.acceptedWord i = some w ↔ i.rst = false ∧ s.busy = false ∧ i.cmdValid = true ∧ i.cmd = w := by
  unfold State.acceptedWord
  cases i.rst <;> cases s.busy <;> cases i.cmdValid <;> simp

/-! Pin operations and the frame -/

/-- An issued pin operation always runs: its meaning is the shared operation. -/
theorem exec_toInstr (p : PinOp) (s : State) : exec p.toInstr s = .next (s.pinOp p) := by
  cases p <;> rfl

/-- `if bit = 1 then PIN_SET_HIGH else PIN_SET_LOW` in effect writes the bit (R102). -/
theorem State.pinOp_levelPinOp (bit : Bool) (s : State) :
    s.pinOp (levelPinOp bit) = { s with pinLevel := bit } := by
  cases bit <;> rfl

/-- Everything `StartFrame` writes (R100). -/
theorem State.startFrame_eq (b : Byte) (g : Bool) (s : State) :
    s.startFrame b g =
      { s with slot := .start, cyc := s.cfg.n - 1, txd := b, guardAct := g, pinLevel := false,
               ie := if g then false else s.ie } := rfl

/-- A command of the TX class starts a frame by the path `GuardSelect` gives (R120, R132). -/
theorem exec_txOp (op : TxOp) (b : Byte) (s : State) :
    exec (op.toInstr b) s = .next (s.startFrame b (guardSelect op s)) := by
  cases op <;> rfl

/-- A host write that is not honoured changes nothing (R148). -/
theorem State.hostIeWrite_ignored {i : Inputs} {s : State} (h : s.ieWriteHonoured i = false) :
    s.hostIeWrite i = s := by
  simp [State.hostIeWrite, h]

/-- While a frame makes progress the host's write of `IE` is ignored (R148). -/
theorem State.hostIeWrite_of_progress {i : Inputs} {s : State} (hb : s.busy = true)
    (hs : s.stall i = false) : s.hostIeWrite i = s :=
  State.hostIeWrite_ignored (by simp [State.ieWriteHonoured, hb, hs])

/-! Slot rules -/

@[simp] theorem State.advanceSlot_txd (s : State) : s.advanceSlot.txd = s.txd := by
  unfold State.advanceSlot; by_cases hc : s.cyc = 0 <;> cases s.slot <;> simp [hc]
@[simp] theorem State.advanceSlot_guardEn (s : State) : s.advanceSlot.guardEn = s.guardEn := by
  unfold State.advanceSlot; by_cases hc : s.cyc = 0 <;> cases s.slot <;> simp [hc]
@[simp] theorem State.advanceSlot_pinLevel (s : State) : s.advanceSlot.pinLevel = s.pinLevel := by
  unfold State.advanceSlot; by_cases hc : s.cyc = 0 <;> cases s.slot <;> simp [hc]
@[simp] theorem State.advanceSlot_pinDir (s : State) : s.advanceSlot.pinDir = s.pinDir := by
  unfold State.advanceSlot; by_cases hc : s.cyc = 0 <;> cases s.slot <;> simp [hc]
@[simp] theorem State.advanceSlot_cfg (s : State) : s.advanceSlot.cfg = s.cfg := by
  unfold State.advanceSlot; by_cases hc : s.cyc = 0 <;> cases s.slot <;> simp [hc]
@[simp] theorem State.advanceSlot_inputs (s : State) : s.advanceSlot.inputs = s.inputs := by
  unfold State.advanceSlot; by_cases hc : s.cyc = 0 <;> cases s.slot <;> simp [hc]
@[simp] theorem State.advanceSlot_cycle (s : State) : s.advanceSlot.cycle = s.cycle := by
  unfold State.advanceSlot; by_cases hc : s.cyc = 0 <;> cases s.slot <;> simp [hc]

/-- The slot rules, one case for each rule R101 to R105: the sequencer's registers and the pin operation together. -/
theorem State.slotRule_cases (s : State) (hb : s.busy = true) :
    (s.cyc ≠ 0 ∧ s.slotPinOp = .hold ∧ s.advanceSlot = s.countDown) ∨
    (s.cyc = 0 ∧ s.slot = .start ∧ s.slotPinOp = levelPinOp (dataBit s.txd 0) ∧
      s.advanceSlot = s.enterSlot (.data 0)) ∨
    (∃ (k : Fin 8) (h : k.val + 1 < 8), s.cyc = 0 ∧ s.slot = .data k ∧
      s.slotPinOp = levelPinOp (dataBit s.txd (k.val + 1)) ∧
      s.advanceSlot = s.enterSlot (.data ⟨k.val + 1, h⟩)) ∨
    (s.cyc = 0 ∧ s.slot = .data 7 ∧ s.slotPinOp = .setHigh ∧ s.advanceSlot = s.enterSlot .stop) ∨
    (s.cyc = 0 ∧ s.slot = .stop ∧ s.slotPinOp = .hold ∧ s.advanceSlot = s.endFrame) := by
  by_cases hc : s.cyc = 0
  · right
    cases hsl : s.slot with
    | idle => simp [State.busy, hsl] at hb
    | start => left; simp [State.slotPinOp, State.advanceSlot, hc, hsl, Slot.next, entryPinOp]
    | stop => right; right; right; simp [State.slotPinOp, State.advanceSlot, hc, hsl, Slot.next, entryPinOp]
    | data k =>
      right
      by_cases hk : k.val + 1 < 8
      · left
        exact ⟨k, hk, by simp [State.slotPinOp, State.advanceSlot, hc, hsl, Slot.next, entryPinOp, hk]⟩
      · right; left
        have hk7 : k = 7 := Fin.ext (by have := k.isLt; simp; omega)
        simp [State.slotPinOp, State.advanceSlot, hc, hsl, Slot.next, entryPinOp, hk7]
  · left; simp [State.slotPinOp, State.advanceSlot, hc]

/-! The host's schedule -/

/-- A cycle later the host's inputs are those of the next cycle. -/
@[simp] theorem State.tick_inputAt (s : State) (j : Nat) : s.tick.inputAt j = s.inputAt (j + 1) := by
  unfold State.inputAt State.tick
  have h : s.cycle + 1 + j = s.cycle + (j + 1) := by omega
  cases s.inputs with
  | nil => simp [h]
  | cons i rest => simp [h]

/-- The host's inputs depend on the schedule and the cycle number alone. -/
theorem State.inputAt_congr {s t : State} (hi : s.inputs = t.inputs) (hc : s.cycle = t.cycle) (j : Nat) :
    s.inputAt j = t.inputAt j := by
  unfold State.inputAt; rw [hi, hc]

end Sys2Proof.Machine
end

