-- ==== Sys2Proof/Laws/PerInstr.lean ====
section
/-! SUPPORT. Statements made for each instruction as it is written down. Family `RowMatch`: the word of an instruction
is one of its row of spec/opcode_table.json (spec 30_encoding.md R71, R74: match under mask). -/

namespace Sys2Proof.Laws.RowMatch

/-- The instruction's word has its row's format and, under the row's mask, its row's bits. -/
def Statement (i : Instr) : Prop := (encode i).matchesRow i.row = true

/-- The opcode field of a command word is its opcode, whatever the operand. -/
theorem commandWord_masked (op : BitVec 3) (x : Byte) :
    (commandWord op x).toNat &&& 0x700 = op.toNat <<< 8 := by
  revert op x
  decide +kernel

theorem reserved0 (x : Byte) : Statement (.reserved0 x) := by
  simp [Statement, Encoded.matchesRow, Encoded.format, Encoded.toNat, encode, Instr.row, commandWord_masked]
theorem init (x : Byte) : Statement (.init x) := by
  simp [Statement, Encoded.matchesRow, Encoded.format, Encoded.toNat, encode, Instr.row, commandWord_masked]
theorem tx (b : Byte) : Statement (.tx b) := by
  simp [Statement, Encoded.matchesRow, Encoded.format, Encoded.toNat, encode, Instr.row, commandWord_masked]
theorem txGuarded (b : Byte) : Statement (.txGuarded b) := by
  simp [Statement, Encoded.matchesRow, Encoded.format, Encoded.toNat, encode, Instr.row, commandWord_masked]
theorem txAuto (b : Byte) : Statement (.txAuto b) := by
  simp [Statement, Encoded.matchesRow, Encoded.format, Encoded.toNat, encode, Instr.row, commandWord_masked]
theorem setGuard (v : Bool) (x : BitVec 7) : Statement (.setGuard v x) := by
  simp [Statement, Encoded.matchesRow, Encoded.format, Encoded.toNat, encode, Instr.row, commandWord_masked]
theorem reserved6 (x : Byte) : Statement (.reserved6 x) := by
  simp [Statement, Encoded.matchesRow, Encoded.format, Encoded.toNat, encode, Instr.row, commandWord_masked]
theorem reserved7 (x : Byte) : Statement (.reserved7 x) := by
  simp [Statement, Encoded.matchesRow, Encoded.format, Encoded.toNat, encode, Instr.row, commandWord_masked]
theorem pinHold : Statement .pinHold := by unfold Statement; decide
theorem pinSetLow : Statement .pinSetLow := by unfold Statement; decide
theorem pinSetHigh : Statement .pinSetHigh := by unfold Statement; decide
theorem pinInit : Statement .pinInit := by unfold Statement; decide

end Sys2Proof.Laws.RowMatch
end

