-- ==== Sys2Proof/Laws/Step.lean ====
section
/-! SUPPORT. What one step can do, said once: the cases of `Step` (spec 43_engine_top.md R135), from which every
invariant is derived without unfolding the step. -/

namespace Sys2Proof.Machine

/-- The registers after a command has run (R132): every command's effect, in one function of the instruction. -/
def afterCommand (i : Instr) (s : State) : State :=
  match i with
  | .reserved0 _ => s
  | .init _ => s.pinOp .init
  | .tx b => s.startFrame b (guardSelect .tx s)
  | .txGuarded b => s.startFrame b (guardSelect .txGuarded s)
  | .txAuto b => s.startFrame b (guardSelect .txAuto s)
  | .setGuard v _ => s.setGuardEn v
  | .reserved6 _ => s
  | .reserved7 _ => s
  | .pinHold => s.pinOp .hold
  | .pinSetLow => s.pinOp .setLow
  | .pinSetHigh => s.pinOp .setHigh
  | .pinInit => s.pinOp .init

theorem exec_eq (i : Instr) (s : State) : exec i s = .next (afterCommand i s) := by
  cases i <;> rfl

/-- If a step answers `t`, one of five things happened: a reset cycle (R160); a stalled cycle (R146); a slot rule
(R101 to R105); an accepted command (R132), after the host's write of `IE`; or an idle cycle without a command. -/
theorem step_cases {s t : State} (h : step s = .next t) :
    (s.input.rst = true ∧ t = s.tick.toReset) ∨
    (s.input.rst = false ∧ s.stall s.input = true ∧ t = s.tick.hostIeWrite s.input) ∨
    (s.input.rst = false ∧ s.stall s.input = false ∧ s.busy = true ∧
      t = (s.tick.advanceSlot).pinOp s.slotPinOp) ∨
    (s.input.rst = false ∧ s.busy = false ∧ s.input.cmdValid = true ∧
      t = afterCommand (decodeCommand s.input.cmd) (s.tick.hostIeWrite s.input)) ∨
    (s.input.rst = false ∧ s.busy = false ∧ s.input.cmdValid = false ∧ t = s.tick.hostIeWrite s.input) := by
  unfold step clockEdge at h
  split at h
  · case isTrue hr => exact .inl ⟨hr, by simpa using h.symm⟩
  case isFalse hr =>
  have hr' : s.input.rst = false := by simpa using hr
  right
  split at h
  · case isTrue hst =>
    exact .inl ⟨hr', by simpa using hst, by simpa [PinOp.toInstr, exec, execPinHold, State.pinOp] using h.symm⟩
  case isFalse hst =>
  have hst' : s.stall s.input = false := by simpa using hst
  right
  split at h
  · case isTrue hb =>
    rw [exec_toInstr, State.hostIeWrite_of_progress hb (by simpa using hst)] at h
    exact .inl ⟨hr', hst', by simpa using hb, by simpa using h.symm⟩
  case isFalse hb =>
  have hb' : s.busy = false := by simpa using hb
  right
  split at h
  · case isTrue hv =>
    rw [exec_eq] at h
    exact .inl ⟨hr', hb', hv, by simpa using h.symm⟩
  · case isFalse hv =>
    exact .inr ⟨hr', hb', by simpa using hv,
      by simpa [PinOp.toInstr, exec, execPinHold, State.pinOp] using h.symm⟩

/-- A run of one step more goes on from the step's next state, in any machine. -/
theorem run_succ (M : Host.Core) {s t : M.State} (k : Nat) (h : M.step s = .next t) :
    M.run (k + 1) s = M.run k t := by
  conv_lhs => unfold Host.Core.run
  simp only [h]

end Sys2Proof.Machine
end

