-- ==== Sys2Proof/Laws/Run.lean ====
section
/-! SUPPORT. Runs: what `advance` is in each kind of cycle, which inputs a later state of a run sees, and how the
conditions on a run follow from its inputs. -/

namespace Sys2Proof.Machine

/-- The machine always has a next state, the one called `advance`. -/
theorem step_eq_advance (s : State) : step s = .next s.advance := by
  have h : ∃ t, step s = .next t := by
    unfold step clockEdge
    split; · exact ⟨_, rfl⟩
    split; · exact ⟨_, exec_eq _ _⟩
    split; · exact ⟨_, exec_eq _ _⟩
    split; · exact ⟨_, exec_eq _ _⟩
    exact ⟨_, exec_eq _ _⟩
  obtain ⟨t, h⟩ := h
  simp [State.advance, h]

theorem eq_advance_of_step {s t : State} (h : step s = .next t) : t = s.advance := by
  rw [step_eq_advance] at h; exact (Host.Outcome.next.inj h).symm

/-- A reset cycle (R160). -/
theorem State.advance_of_reset {s : State} (hr : s.inReset = true) : s.advance = s.tick.toReset := by
  rcases step_cases (step_eq_advance s) with ⟨_, h⟩ | ⟨a, _⟩ | ⟨a, _⟩ | ⟨a, _⟩ | ⟨a, _⟩
  · exact h
  all_goals exact absurd (hr.symm.trans a) (by decide)

/-- A stalled cycle (R146). -/
theorem State.advance_of_stall {s : State} (hr : s.inReset = false) (hs : s.stalled = true) :
    s.advance = s.tick.hostIeWrite s.input := by
  have hb := ((State.stall_iff _ _).1 hs).1
  rcases step_cases (step_eq_advance s) with ⟨a, _⟩ | ⟨_, _, h⟩ | ⟨_, a, _⟩ | ⟨_, a, _⟩ | ⟨_, a, _⟩
  · exact absurd (a.symm.trans hr) (by decide)
  · exact h
  · exact absurd (hs.symm.trans a) (by decide)
  · exact absurd (hb.symm.trans a) (by decide)
  · exact absurd (hb.symm.trans a) (by decide)

/-- A busy cycle that is not stalled (R101 to R105). -/
theorem State.advance_of_progress {s : State} (hr : s.inReset = false) (hs : s.stalled = false) (hb : s.busy = true) :
    s.advance = (s.tick.advanceSlot).pinOp s.slotPinOp := by
  rcases step_cases (step_eq_advance s) with ⟨a, _⟩ | ⟨_, a, _⟩ | ⟨_, _, _, h⟩ | ⟨_, a, _⟩ | ⟨_, a, _⟩
  · exact absurd (a.symm.trans hr) (by decide)
  · exact absurd (a.symm.trans hs) (by decide)
  · exact h
  · exact absurd (hb.symm.trans a) (by decide)
  · exact absurd (hb.symm.trans a) (by decide)

/-- An idle cycle: the command presented, if any, after the host's write of `IE` (R132). -/
theorem State.advance_of_idle {s : State} (hr : s.inReset = false) (hb : s.busy = false) :
    s.advance = if s.input.cmdValid then afterCommand (decodeCommand s.input.cmd) (s.tick.hostIeWrite s.input)
      else s.tick.hostIeWrite s.input := by
  rcases step_cases (step_eq_advance s) with ⟨a, _⟩ | ⟨_, a, _⟩ | ⟨_, _, a, _⟩ | ⟨_, _, a, h⟩ | ⟨_, _, a, h⟩
  · exact absurd (a.symm.trans hr) (by decide)
  · exact absurd (((State.stall_iff _ _).1 a).1.symm.trans hb) (by decide)
  · exact absurd (a.symm.trans hb) (by decide)
  · simpa [a] using h
  · simpa [a] using h

/-- An instruction is accepted outside reset, while idle, when its word is presented (R130). -/
theorem State.accepts_eq_some {s : State} {i : Instr} : s.accepts = some i ↔
    s.inReset = false ∧ s.busy = false ∧ s.input.cmdValid = true ∧ decodeCommand s.input.cmd = i := by
  unfold State.accepts State.inReset
  rw [Option.map_eq_some_iff]
  constructor
  · rintro ⟨w, h, rfl⟩
    obtain ⟨a, b, c, rfl⟩ := State.acceptedWord_eq_some.1 h
    exact ⟨a, b, c, rfl⟩
  · rintro ⟨a, b, c, rfl⟩
    exact ⟨_, State.acceptedWord_eq_some.2 ⟨a, b, c, rfl⟩, rfl⟩

/-- The host's write of `IE` in an idle cycle. -/
theorem State.hostIeWrite_of_idle {s : State} (hb : s.busy = false) (i : Inputs) :
    s.hostIeWrite i = { s with ie := if i.ieWe then i.ieD else s.ie } := by
  have h : s.ieWriteHonoured i = i.ieWe := by simp [State.ieWriteHonoured, hb]
  simp only [State.hostIeWrite, h]

/-- The host's write of `IE` in a stalled cycle. -/
theorem State.hostIeWrite_of_stall {s : State} {i : Inputs} (hs : s.stall i = true) :
    s.hostIeWrite i = { s with ie := if i.ieWe then i.ieD else s.ie } := by
  have h : s.ieWriteHonoured i = i.ieWe := by simp [State.ieWriteHonoured, hs]
  simp only [State.hostIeWrite, h]

@[simp] theorem afterCommand_cfg (i : Instr) (s : State) : (afterCommand i s).cfg = s.cfg := by cases i <;> rfl
@[simp] theorem afterCommand_inputs (i : Instr) (s : State) : (afterCommand i s).inputs = s.inputs := by cases i <;> rfl
@[simp] theorem afterCommand_cycle (i : Instr) (s : State) : (afterCommand i s).cycle = s.cycle := by cases i <;> rfl

/-- Every step moves the schedule on by one cycle and keeps the parameters. -/
theorem State.advance_model_fields (s : State) :
    s.advance.cfg = s.cfg ∧ s.advance.inputs = s.inputs.tail ∧ s.advance.cycle = s.cycle + 1 := by
  rcases step_cases (step_eq_advance s) with ⟨_, h⟩ | ⟨_, _, h⟩ | ⟨_, _, _, h⟩ | ⟨_, _, _, h⟩ | ⟨_, _, _, h⟩ <;>
    rw [h] <;> simp

@[simp] theorem State.advance_inputAt (s : State) (j : Nat) : s.advance.inputAt j = s.inputAt (j + 1) := by
  obtain ⟨_, hi, hc⟩ := s.advance_model_fields
  rw [← State.tick_inputAt]; exact State.inputAt_congr hi hc j

/-- The state `k` cycles on sees the schedule from cycle `k` on. -/
@[simp] theorem State.stateAt_inputAt (s : State) (k j : Nat) : (s.stateAt k).inputAt j = s.inputAt (k + j) := by
  induction k generalizing j with
  | zero => simp [State.stateAt]
  | succ k ih => rw [State.stateAt, State.advance_inputAt, ih]; congr 1; omega

@[simp] theorem State.stateAt_input (s : State) (k : Nat) : (s.stateAt k).input = s.inputAt k := by
  simp [State.input]

@[simp] theorem State.stateAt_cfg (s : State) (k : Nat) : (s.stateAt k).cfg = s.cfg := by
  induction k with
  | zero => rfl
  | succ k ih => rw [State.stateAt, (State.advance_model_fields _).1, ih]

/-- A run of `a + k` cycles is a run of `k` cycles from the state after `a`. -/
theorem State.stateAt_add (s : State) (a k : Nat) : s.stateAt (a + k) = (s.stateAt a).stateAt k := by
  induction k with
  | zero => rfl
  | succ k ih => rw [← Nat.add_assoc]; simp only [State.stateAt, ih]

/-- No reset cycle, because the host holds `rst = 0`. -/
theorem State.resetFree_of_inputs {s : State} {k : Nat} (h : ∀ j < k, (s.inputAt j).rst = false) : s.ResetFree k := by
  intro j hj; simpa [State.inReset] using h j hj

/-- No stalled cycle, because the host holds `irq = 0`. -/
theorem State.stallFree_of_inputs {s : State} {k : Nat} (h : ∀ j < k, (s.inputAt j).irq = false) : s.StallFree k := by
  intro j hj _; simp [State.stalled, State.stall, h j hj]

end Sys2Proof.Machine
end

