-- ==== Sys2Proof/Machine/Assembler.lean ====
section
/-! DEFINITION. The command lines and pseudo-instructions of spec 30_encoding.md R81 and R82, read from a line's
characters. They are notation for commands and for inputs; no meaning depends on them (log 13). -/

namespace Sys2Proof.Machine

/-- A line: a command, or one of the pseudo-instructions `TX_STR "..."`, `WAIT n`, `IRQ t1..t2` (R82). -/
inductive Line where
  | command (i : Instr)
  | txStr (bytes : List Byte)
  | wait (n : Nat)
  | irq (first last : Nat)
deriving DecidableEq, Repr

/-- The value of a digit: `0` to `9`, then `a` or `A` to `f` or `F`. -/
def digitValue (c : Char) : Option Nat :=
  let n := c.toNat
  if 48 ≤ n ∧ n ≤ 57 then some (n - 48)
  else if 97 ≤ n ∧ n ≤ 102 then some (n - 87)
  else if 65 ≤ n ∧ n ≤ 70 then some (n - 55)
  else none

/-- The number that digits in a base stand for, after a number read so far. -/
def digitsFrom (base acc : Nat) : List Char → Option Nat
  | [] => some acc
  | c :: rest =>
    match digitValue c with
    | some d => if d < base then digitsFrom base (acc * base + d) rest else none
    | none => none

/-- At least one digit. -/
def digits (base : Nat) : List Char → Option Nat
  | [] => none
  | c :: rest => digitsFrom base 0 (c :: rest)

/-- A number: `0x41`, `0b01000001` or `65` (R81). -/
def readNumber : List Char → Option Nat
  | '0' :: 'x' :: rest => digits 16 rest
  | '0' :: 'b' :: rest => digits 2 rest
  | cs => digits 10 cs

/-- The ASCII code of a character (R81, G1), where it has one. -/
def charByte (c : Char) : Option Byte :=
  if c.toNat < 128 then some (BitVec.ofNat 8 c.toNat) else none

/-- An operand byte: a number from 0 to 255, or one character in single quotes (R81). -/
def readByte : List Char → Option Byte
  | ['\'', c, '\''] => charByte c
  | cs =>
    match readNumber cs with
    | some n => if n < 256 then some (BitVec.ofNat 8 n) else none
    | none => none

/-- The characters of a double-quoted string, the closing quote last (R82). Code 34 is the double quote. -/
def readQuoted : List Char → Option (List Byte)
  | [] => none
  | c :: rest =>
    if c.toNat = 34 then (if rest.isEmpty then some [] else none)
    else
      match charByte c, readQuoted rest with
      | some b, some bs => some (b :: bs)
      | some _, none => none
      | none, _ => none

/-- The operand of `TX_STR`: a double quote, then the characters. -/
def readString : List Char → Option (List Byte)
  | [] => none
  | c :: rest => if c.toNat = 34 then readQuoted rest else none

/-- `t1..t2`: the characters before the first two dots, and those after. -/
def splitSpan : List Char → Option (List Char × List Char)
  | '.' :: '.' :: rest => some ([], rest)
  | [] => none
  | c :: rest =>
    match splitSpan rest with
    | some (a, b) => some (c :: a, b)
    | none => none

/-- The operand of `IRQ`. -/
def readSpan (cs : List Char) : Option (Nat × Nat) :=
  match splitSpan cs with
  | none => none
  | some (a, b) =>
    match readNumber a, readNumber b with
    | some x, some y => some (x, y)
    | some _, none => none
    | none, _ => none

/-- A line's mnemonic and, after one space, its operand where there is one. -/
def splitLine : List Char → List Char × Option (List Char)
  | [] => ([], none)
  | ' ' :: rest => ([], some rest)
  | c :: rest => (c :: (splitLine rest).1, (splitLine rest).2)

/-- The line that a mnemonic with this operand is; nothing where the line is none of R81 or R82. -/
def readOperand (mnemonic : List Char) (operand : List Char) : Option Line :=
  if mnemonic = ['T', 'X'] then (readByte operand).map fun b => .command (.tx b)
  else if mnemonic = ['T', 'X', '_', 'G', 'U', 'A', 'R', 'D', 'E', 'D'] then
    (readByte operand).map fun b => .command (.txGuarded b)
  else if mnemonic = ['T', 'X', '_', 'A', 'U', 'T', 'O'] then
    (readByte operand).map fun b => .command (.txAuto b)
  else if mnemonic = ['S', 'E', 'T', '_', 'G', 'U', 'A', 'R', 'D'] then
    match readNumber operand with
    | some 0 => some (.command (.setGuard false 0))
    | some 1 => some (.command (.setGuard true 0))
    | some _ => none
    | none => none
  else if mnemonic = ['T', 'X', '_', 'S', 'T', 'R'] then (readString operand).map .txStr
  else if mnemonic = ['W', 'A', 'I', 'T'] then (readNumber operand).map .wait
  else if mnemonic = ['I', 'R', 'Q'] then (readSpan operand).map fun p => .irq p.1 p.2
  else none

/-- One line of a program. -/
def readLine (cs : List Char) : Option Line :=
  match splitLine cs with
  | (mnemonic, none) => if mnemonic = ['I', 'N', 'I', 'T'] then some (.command (.init 0)) else none
  | (mnemonic, some operand) => readOperand mnemonic operand

end Sys2Proof.Machine
end

