-- ==== Sys2Proof/Machine/Program.lean ====
section
/-! DEFINITION. The host that runs a program of lines (spec 30_encoding.md R81, R82): it presents each command until the
cycle in which the port is ready, then moves to the next line. The result is a schedule of inputs for State (logs 3, 4). -/

namespace Sys2Proof.Machine

/-- What the host does in one go: present a word until it is accepted, or present nothing for one cycle. -/
inductive HostAct where
  | present (w : CommandWord)
  | pause
deriving DecidableEq, Repr

/-- A command's word, where the host can issue it; a pin operation cannot be issued by the host (R74). -/
def hostWord (i : Instr) : Option CommandWord :=
  match encode i with
  | .command w => some w
  | .pinOp _ => none

/-- A line's acts: `TX_STR` is one `TX_AUTO` a character with no terminator, `WAIT n` is `n` pauses, `IRQ` is not an act
but a choice of the input `irq` (R82). -/
def lineActs : Line → List HostAct
  | .command i => ((hostWord i).map HostAct.present).toList
  | .txStr bytes => bytes.map fun b => .present (commandWord 0b100 b)
  | .wait n => List.replicate n .pause
  | .irq _ _ => []

/-- A program holds `irq = 1` in cycle `t`: some `IRQ t1..t2` line of it includes `t` (R82). -/
def irqHeld (lines : List Line) (t : Nat) : Bool :=
  lines.any fun l =>
    match l with
    | .irq t1 t2 => decide (t1 ≤ t ∧ t ≤ t2)
    | .command _ => false
    | .txStr _ => false
    | .wait _ => false

/-- The first of the host's acts, in a cycle with this `cmd_ready`: the word presented, and the acts left (R81). -/
def hostCycle (acts : List HostAct) (ready : Bool) : Option CommandWord × List HostAct :=
  match acts with
  | [] => (none, [])
  | .present w :: rest => (some w, if ready then rest else .present w :: rest)
  | .pause :: rest => (none, rest)

/-- The inputs of `k` cycles from cycle `t` on, the block being in state `s` in cycle `t`. -/
def hostSchedule (lines : List Line) : Nat → Nat → List HostAct → State → List Inputs
  | 0, _, _, _ => []
  | k + 1, t, acts, s =>
    let now := hostCycle acts s.cmdReady
    let i : Inputs :=
      { Inputs.quiet with cmdValid := now.1.isSome, cmd := now.1.getD 0, irq := irqHeld lines t }
    i :: hostSchedule lines k (t + 1) now.2
      (match clockEdge i s with
       | .next s' => s'
       | .fault _ => s
       | .refused _ => s)

/-- The state with the first `k` cycles of a program's inputs as its schedule. -/
def State.loadProgram (s : State) (lines : List Line) (k : Nat) : State :=
  { s with inputs := hostSchedule lines k 0 (lines.flatMap lineActs) s }

end Sys2Proof.Machine
end

