-- ==== Sys2Proof/Tests/Slice0.lean ====
section
/-! SUPPORT. The model's own tests. Expected values are the spec's: the encodings of 30_encoding.md R71 to R74 and
R81, and the derived vectors of 95_test_vectors.md sections 2 to 8, named at each test. The witnesses at the end show,
for every obligation with hypotheses, a concrete state that meets them. -/

namespace Sys2Proof.Machine.Tests

/-! ## Helpers -/

/-- The start state of 95_test_vectors.md section 6 (after reset and INIT, `IE = 1`), with bit period `n` and inputs. -/
def ready (n : Nat) (l : List Inputs) : State :=
  { slot := .idle, cyc := 0, txd := 0, guardAct := false, guardEn := true, pinLevel := true, pinDir := true, ie := true,
    cfg := { Config.smallest with n := n }, inputs := l, cycle := 0 }

/-- `ready` in a slot of an unguarded frame, at that slot's level. -/
def inFrame (sl : Slot) (cyc : Nat) (txd : Byte) (level : Bool) (l : List Inputs) : State :=
  { ready 4 l with slot := sl, cyc := cyc, txd := txd, pinLevel := level }

/-- A request of the host, nothing else. -/
def request : Inputs := { Inputs.quiet with irq := true }

/-- A write of `IE`, nothing else. -/
def writeIe (d : Bool) : Inputs := { Inputs.quiet with ieWe := true, ieD := d }

/-- A reset cycle in which a command is presented and `IE` written. -/
def resetting : Inputs := { Inputs.present 0x255 with rst := true, ieWe := true, ieD := true }

/-- `PIN_LEVEL`, `PIN_DIR` and the pad. -/
def pins (s : State) : Bool × Bool × Pad := (s.pinLevel, s.pinDir, s.pad)

/-! ## WellFormed: one ill-formed term for each check -/

theorem test_wellFormed_accepts : (Instr.tx 0xFF).wellFormed = true := by decide
theorem test_ignored_init_bits_refused : (Instr.init 1).wellFormed = false ∧ (Instr.init 1).ignoredBitsClear = false := by
  decide
theorem test_ignored_setGuard_bits_refused : (Instr.setGuard false 0x7F).wellFormed = false := by decide
theorem test_reserved_opcodes_refused :
    (Instr.reserved0 0).wellFormed = false ∧ (Instr.reserved6 0).wellFormed = false ∧
    (Instr.reserved7 0).wellFormed = false ∧ (Instr.reserved0 0).ignoredBitsClear = true := by decide
theorem test_ignored_reserved_bits_refused :
    (Instr.reserved0 1).ignoredBitsClear = false ∧ (Instr.reserved6 1).ignoredBitsClear = false ∧
    (Instr.reserved7 1).ignoredBitsClear = false := by decide

/-! ## Decoding: words written out bit by bit from R71, R72 and R74; the second number is opcode_table.json's -/

theorem test_decode_reserved0 : decode (.command 0b00011111111#11) = .reserved0 0xFF ∧
    decodeTableWord 16 0x0FF = some (.reserved0 0xFF) := by decide
theorem test_decode_init : decode (.command 0b00100000000#11) = .init 0 ∧
    decodeTableWord 16 0x100 = some (.init 0) := by decide
theorem test_decode_tx : decode (.command 0b01001011010#11) = .tx 0x5A ∧
    decodeTableWord 16 0x25A = some (.tx 0x5A) := by decide
theorem test_decode_txGuarded : decode (.command 0b01101000010#11) = .txGuarded 0x42 ∧
    decodeTableWord 16 0x342 = some (.txGuarded 0x42) := by decide
theorem test_decode_txAuto : decode (.command 0b10001000001#11) = .txAuto 0x41 ∧
    decodeTableWord 16 0x441 = some (.txAuto 0x41) := by decide
theorem test_decode_setGuard : decode (.command 0b10111111110#11) = .setGuard false 0x7F ∧
    decodeTableWord 16 0x501 = some (.setGuard true 0) := by decide
theorem test_decode_reserved6 : decode (.command 0b11000000000#11) = .reserved6 0 ∧
    decodeTableWord 16 0x600 = some (.reserved6 0) := by decide
theorem test_decode_reserved7 : decode (.command 0b11111111111#11) = .reserved7 0xFF ∧
    decodeTableWord 16 0x7FF = some (.reserved7 0xFF) := by decide
theorem test_decode_pinHold : decode (.pinOp 0b00#2) = .pinHold ∧ decodeTableWord 8 0b00 = some .pinHold := by decide
theorem test_decode_pinSetLow : decode (.pinOp 0b01#2) = .pinSetLow ∧ decodeTableWord 8 0b01 = some .pinSetLow := by decide
theorem test_decode_pinSetHigh : decode (.pinOp 0b10#2) = .pinSetHigh ∧ decodeTableWord 8 0b10 = some .pinSetHigh := by
  decide
theorem test_decode_pinInit : decode (.pinOp 0b11#2) = .pinInit ∧ decodeTableWord 8 0b11 = some .pinInit := by decide

theorem test_decode_rejects_wide_command : readWord .h 0x800 = .error .widerThanCommandPort ∧
    decodeTableWord 16 0x800 = none := ⟨rfl, rfl⟩
theorem test_decode_rejects_wide_pin_code : readWord .p 4 = .error .widerThanPinOp ∧
    decodeTableWord 8 4 = none := ⟨rfl, rfl⟩

/-- R132, R74: every word belongs to exactly one row of spec/opcode_table.json, and that is its instruction's row. -/
theorem test_every_command_has_one_row : ∀ w : CommandWord,
    opcodeRows.filter (fun r => (Encoded.command w).matchesRow r) = [(decode (.command w)).row] := by decide +kernel
theorem test_every_pin_code_has_one_row : ∀ c : PinCode,
    opcodeRows.filter (fun r => (Encoded.pinOp c).matchesRow r) = [(decode (.pinOp c)).row] := by decide +kernel

/-- 95_test_vectors.md section 2: the frame words of 0x55, 0xA5 and 0x80, and the slots of 0x2D. -/
theorem test_frame_words : frameWord 0x55 = 0x2AA ∧ frameWord 0xA5 = 0x34A ∧ frameWord 0x80 = 0x300 ∧
    (List.range 10).map (frameBit 0x2D) = [false, true, false, true, true, false, true, false, false, true] := by
  decide

/-! ## One step of every command, from 95_test_vectors.md section 6 (`N = 4`), on the word the host presents -/

theorem test_reserved0_does_nothing :
    ((ready 4 []).withFetchWord 16 0x0FF).advance = { ready 4 [] with cycle := 1 } := by decide
theorem test_reserved6_does_nothing :
    ((ready 4 []).withFetchWord 16 0x600).advance = { ready 4 [] with cycle := 1 } := by decide
theorem test_reserved7_does_nothing :
    ((ready 4 []).withFetchWord 16 0x7FF).advance = { ready 4 [] with cycle := 1 } := by decide

/-- Section 3, PIN_INIT from (0,0,Z). -/
theorem test_init_drives_high :
    let t := ({ ready 4 [] with pinLevel := false, pinDir := false }.withFetchWord 16 0x100).advance
    pins t = (true, true, .high) ∧ t.busy = false := by decide

theorem test_tx_starts_frame :
    let t := ((ready 4 []).withFetchWord 16 0x25A).advance
    (t.slot, t.cyc, t.txd) = (.start, 3, 0x5A) ∧ (t.guardAct, t.pinLevel, t.ie) = (false, false, true) := by decide
/-- Section 5: TX with `FORCE_GUARD` is guarded. -/
theorem test_tx_forced :
    let s := { ready 4 [] with guardEn := false, cfg := { Config.smallest with n := 4, forceGuard := true } }
    let t := (s.withFetchWord 16 0x25A).advance
    (t.guardAct, t.ie, t.guardEn) = (true, false, false) := by decide

theorem test_txGuarded_clears_ie :
    let t := ((ready 4 []).withFetchWord 16 0x35A).advance
    (t.slot, t.cyc, t.txd) = (.start, 3, 0x5A) ∧ (t.guardAct, t.guardEn, t.ie) = (true, true, false) := by decide
/-- Section 10.8, variant: the host's write of `IE` in the acceptance cycle loses to the guard entry. -/
theorem test_txGuarded_beats_host_write :
    (ready 2 [{ Inputs.present 0x300 with ieWe := true, ieD := true }]).advance.ie = false := by decide

theorem test_txAuto_guarded_by_flag :
    let t := ((ready 4 []).withFetchWord 16 0x45A).advance
    (t.slot, t.guardAct, t.ie) = (.start, true, false) := by decide
theorem test_txAuto_unguarded_without_flag :
    let t := ({ ready 4 [] with guardEn := false }.withFetchWord 16 0x45A).advance
    (t.slot, t.guardAct, t.ie, t.txd) = (.start, false, true, 0x5A) := by decide

theorem test_setGuard_reads_bit_0 :
    ((ready 4 []).withFetchWord 16 0x5FE).advance.guardEn = false ∧
    ((ready 4 []).withFetchWord 16 0x501).advance.guardEn = true := by decide
theorem test_setGuard_leaves_ie_and_pin :
    let t := ((ready 4 []).withFetchWord 16 0x500).advance
    (t.ie, t.pinLevel, t.busy, t.guardAct) = (true, true, false, false) := by decide

/-- Section 6, last row: a command presented while busy is not accepted; the slot rule applies. -/
theorem test_busy_port_ignores_command :
    let t := (inFrame .start 3 0xA5 false [Inputs.present 0x100]).advance
    (t.slot, t.cyc, t.pinLevel) = (.start, 2, false) := by decide

/-! ## Pin operations, from section 3, as the block issues them -/

/-- The pins after a pin operation has run. -/
def pinsAfter (i : Instr) (level dir : Bool) : Option (Bool × Bool × Pad) :=
  match exec i { ready 4 [] with pinLevel := level, pinDir := dir } with
  | .next t => some (pins t)
  | .fault _ => none
  | .refused _ => none

theorem test_pinHold : pinsAfter .pinHold false true = some (false, true, .low) ∧
    pinsAfter .pinHold true false = some (true, false, .z) := by decide
theorem test_pinSetLow : pinsAfter .pinSetLow true false = some (false, false, .z) ∧
    pinsAfter .pinSetLow true true = some (false, true, .low) := by decide
theorem test_pinSetHigh : pinsAfter .pinSetHigh false false = some (true, false, .z) ∧
    pinsAfter .pinSetHigh false true = some (true, true, .high) := by decide
theorem test_pinInit : pinsAfter .pinInit false false = some (true, true, .high) ∧
    pinsAfter .pinInit false true = some (true, true, .high) := by decide

/-! ## Slot rules, from section 4 (`N = 4`, `TXD = 0xA5`) -/

/-- The row's right side: `SLOT`, `CYC`, `PIN_LEVEL`. -/
def row (s : State) : Slot × Nat × Bool := (s.slot, s.cyc, s.pinLevel)

theorem test_count_down : row (inFrame .start 3 0xA5 false [.quiet]).advance = (.start, 2, false) ∧
    row (inFrame .stop 2 0xA5 true [.quiet]).advance = (.stop, 1, true) := by decide
theorem test_start_exit : row (inFrame .start 0 0xA5 false [.quiet]).advance = (.data 0, 3, true) := by decide
theorem test_data_exits : row (inFrame (.data 0) 0 0xA5 true [.quiet]).advance = (.data 1, 3, false) ∧
    row (inFrame (.data 3) 0 0xA5 false [.quiet]).advance = (.data 4, 3, false) ∧
    row (inFrame (.data 6) 0 0xA5 false [.quiet]).advance = (.data 7, 3, true) := by decide
theorem test_data7_exit : row (inFrame (.data 7) 0 0xA5 true [.quiet]).advance = (.stop, 3, true) := by decide
theorem test_stop_exit_guarded :
    let t := { inFrame .stop 0 0xA5 true [.quiet] with guardAct := true, ie := false }.advance
    (t.slot, t.guardAct, t.ie, t.pinLevel) = (.idle, false, true, true) := by decide
theorem test_stop_exit_unguarded :
    let t := { inFrame .stop 0 0xA5 true [.quiet] with ie := false }.advance
    (t.slot, t.ie) = (.idle, false) := by decide
theorem test_idle_stays_idle : (ready 4 [.quiet]).advance = { ready 4 [] with cycle := 1 } := by decide

/-! ## Stall and the `IE` port, from section 7 -/

theorem test_stall_holds : (inFrame (.data 0) 3 0xA5 true [request]).advance =
    { inFrame (.data 0) 3 0xA5 true [] with cycle := 1 } := by decide
theorem test_masked_request_advances :
    row { inFrame (.data 0) 3 0xA5 true [request] with ie := false }.advance = (.data 0, 2, true) := by decide
theorem test_ie_write_ignored_in_progress : (inFrame .start 3 0xA5 false [writeIe false]).advance.ie = true ∧
    { inFrame .start 3 0xA5 false [{ request with ieWe := true, ieD := true }] with ie := false }.advance.ie = false := by
  decide
theorem test_ie_write_honoured :
    (inFrame .start 3 0xA5 false [{ request with ieWe := true, ieD := false }]).advance.ie = false ∧
    (ready 4 [writeIe false]).advance.ie = false := by decide

/-! ## Reset, from section 8, and outputs, from R136 -/

theorem test_reset_in_guarded_frame :
    let s := { inFrame (.data 3) 2 0xA5 false [resetting] with guardAct := true, guardEn := false, ie := false }
    let t := s.advance
    (t.slot, t.guardAct, t.guardEn, t.pad) = (.idle, false, true, .z) ∧
    (t.pinLevel, t.ie) = (s.cfg.pinLevelReset, s.cfg.ieReset) := by decide
/-- R161: the reset state, whatever the configuration is. -/
theorem test_reset_state : State.reset.slot = .idle ∧ State.reset.guardAct = false ∧ State.reset.guardEn = true ∧
    State.reset.pinDir = false ∧ State.reset.pad = .z := ⟨rfl, rfl, rfl, rfl, rfl⟩
theorem test_ready_does_not_depend_on_reset : ((ready 4 []).outputs resetting).cmdReady = true ∧
    ((inFrame .start 3 0 false []).outputs request).stall = true := by decide

/-! ## The first instruction after reset, on the word placed by `withFetchWord` -/

theorem test_fetch_tx : ∃ t, step (State.reset.withFetchWord 16 0x25A) = .next t ∧
    t.slot = .start ∧ t.txd = 0x5A ∧ t.pinLevel = false := ⟨_, rfl, rfl, rfl, rfl⟩
theorem test_fetch_init : ∃ t, step (State.reset.withFetchWord 16 0x100) = .next t ∧
    t.pinLevel = true ∧ t.pinDir = true := ⟨_, rfl, rfl, rfl⟩
/-- The four pin operations are the ones the block issues in the cycle that `withFetchWord` prepares. -/
theorem test_fetch_pin_operations : ∀ c : PinCode,
    let s := (ready 4 []).withFetchWord 8 c.toNat
    s.issuedPinOp s.input = decodePinCode c := by decide
/-- The step runs the pin operation itself, from reset too. -/
theorem test_fetch_pinSetLow : step (State.reset.withFetchWord 8 1) =
    exec .pinSetLow ((State.reset.withFetchWord 8 1).tick.advanceSlot) := rfl
theorem test_fetch_pinSetHigh : step (State.reset.withFetchWord 8 2) =
    exec .pinSetHigh ((State.reset.withFetchWord 8 2).tick.advanceSlot) := rfl

/-! ## Lines and the host that presents them (R81, R82) -/

theorem test_line_init : readLine ['I', 'N', 'I', 'T'] = some (.command (.init 0)) := by decide
theorem test_line_tx_numbers : readLine ['T', 'X', ' ', '0', 'x', '4', '1'] = some (.command (.tx 0x41)) ∧
    readLine ['T', 'X', ' ', '6', '5'] = some (.command (.tx 0x41)) ∧
    readLine ['T', 'X', ' ', '0', 'b', '0', '1', '0', '0', '0', '0', '0', '1'] = some (.command (.tx 0x41)) ∧
    readLine ['T', 'X', ' ', '\'', 'A', '\''] = some (.command (.tx 0x41)) := by decide
theorem test_line_rejects_wide_byte : readLine ['T', 'X', ' ', '2', '5', '6'] = none := by decide
theorem test_line_setGuard : readLine ['S', 'E', 'T', '_', 'G', 'U', 'A', 'R', 'D', ' ', '1'] =
    some (.command (.setGuard true 0)) ∧
    readLine ['S', 'E', 'T', '_', 'G', 'U', 'A', 'R', 'D', ' ', '2'] = none := by decide
theorem test_line_string : (readLine ['T', 'X', '_', 'S', 'T', 'R', ' ', '"', '-', '1', '"']).map lineActs =
    some [.present 0x42D, .present 0x431] := by decide
theorem test_line_wait_irq : readLine ['W', 'A', 'I', 'T', ' ', '3'] = some (.wait 3) ∧
    readLine ['I', 'R', 'Q', ' ', '7', '.', '.', '9'] = some (.irq 7 9) := by decide
/-- Section 10.1, the inputs of cycles 0 to 2: INIT, then TX 0x55, each accepted at once, then nothing. -/
theorem test_program_inputs : (State.loadProgram { ready 4 [] with pinLevel := false, pinDir := false }
      [.command (.init 0), .command (.tx 0x55)] 3).inputs =
    [Inputs.present 0x100, Inputs.present 0x255, Inputs.quiet] := by decide

/-! ## Witnesses: for each obligation with hypotheses, states that meet them, one for each clause -/

/-- A host that presents TX 0xA5, holds `TX 0x01` through the frame (`N = 2`, 20 cycles), and never asks for service. -/
def sending : State := ready 2 (Inputs.present 0x2A5 :: List.replicate 30 (Inputs.present 0x201))

/-- The same frame, stalled in cycles 3 and 4, with no second command. -/
def stalledSending : State :=
  ready 2 (Inputs.present 0x2A5 :: .quiet :: .quiet :: request :: request :: List.replicate 30 .quiet)

/-- A guarded frame under constant requests and writes of `IE`. -/
def guardedSending : State :=
  ready 2 (Inputs.present 0x3A5 :: List.replicate 30 { request with ieWe := true, ieD := true })

theorem sending_starts : sending.StartsFrame .tx 0xA5 := by unfold State.StartsFrame; decide
theorem sending_resetFree : ∀ k ≤ 25, sending.ResetFree k := fun k hk =>
  State.resetFree_of_inputs fun j hj => (by decide : ∀ j < 25, (sending.inputAt j).rst = false) j (by omega)
theorem sending_stallFree : ∀ k ≤ 25, sending.StallFree k := fun k hk =>
  State.stallFree_of_inputs fun j hj => (by decide : ∀ j < 25, (sending.inputAt j).irq = false) j (by omega)
theorem stalledSending_starts : stalledSending.StartsFrame .tx 0xA5 := by unfold State.StartsFrame; decide
theorem stalledSending_resetFree : stalledSending.ResetFree 23 :=
  State.resetFree_of_inputs (by decide)
theorem stalledSending_busy : ∀ j, 1 ≤ j → j < 23 → (stalledSending.stateAt j).busy = true := fun j h1 h2 =>
  (by decide +kernel : ∀ j < 23, 1 ≤ j → (stalledSending.stateAt j).busy = true) j h2 h1
theorem guardedSending_starts : guardedSending.StartsFrame .txGuarded 0xA5 := by unfold State.StartsFrame; decide
theorem guardedSending_resetFree : guardedSending.ResetFree 21 := State.resetFree_of_inputs (by decide)

theorem witness_ElaborationBuildsExactlyValidConfigurations :
    elaborateBlock Config.smallest = .ok (State.resetOf Config.smallest) ∧
    elaborateBlock { Config.smallest with clkHz := 3 } = .error .clockNotSupported ∧
    elaborateBlock { Config.smallest with baud := 2 } = .error .profileNotTuned ∧
    elaborateBlock { Config.smallest with profile := .fast } = .error .profileNotTuned ∧
    elaborateBlock { Config.smallest with n := 1, profileTable := [⟨2, .slow, 1, 1⟩] } = .error .bitPeriodTooShort :=
  ⟨rfl, rfl, rfl, rfl, rfl⟩
theorem witness_CycWidthIsTheLeastThatHoldsN :
    [1, 2, 3, 4, 5].map (fun n => ({ Config.smallest with n := n } : Config).cycWidth) = [1, 1, 2, 2, 3] := by decide
theorem witness_ResetCycleGivesResetState :
    (inFrame (.data 3) 2 0 false [resetting]).inReset = true ∧
    ((inFrame .stop 1 0 true [.quiet]).inReset = false ∧ (inFrame .stop 1 0 true [.quiet]).busy = true) := by decide
theorem witness_ReservedOpcodesChangeNothing :
    (ready 4 [Inputs.present 0x7FF]).accepts = some (.reserved7 0xFF) ∧ (Instr.reserved7 0xFF).reserved = true := by decide
theorem witness_InitRaisesAndDrivesThePin :
    (ready 4 [Inputs.present 0x1FF]).accepts = some (.init 0xFF) ∧ (inFrame .stop 0 0 true []).busy = true ∧
    exec (.init 0) (ready 4 []) = .next (ready 4 []) ∧
    (let s := ({ ready 4 [Inputs.present 0x200] with pinDir := false } : State); s.StartsFrame .tx 0 ∧ s.pinDir = false) :=
  ⟨by decide, by decide, rfl, by unfold State.StartsFrame; decide⟩
theorem witness_TxStartsAFrameByTheParameter :
    (ready 4 [Inputs.present 0x2FF]).accepts = some (.tx 0xFF) ∧
    (inFrame .start 3 0 false [Inputs.present 0x200]).busy = true ∧
    ({ ready 4 [] with cfg := { Config.smallest with forceGuard := true } } : State).cfg.forceGuard = true := by decide
theorem witness_TxAutoStartsAFrameByTheFlag : (ready 4 []).guardEn = true ∧
    ({ ready 4 [] with guardEn := false } : State).guardEn = false ∧ (ready 4 []).cfg.forceGuard = false := by decide
theorem witness_SetGuardAloneWritesTheFlag :
    (ready 4 [Inputs.present 0x500]).accepts = some (.setGuard false 0) ∧
    (∀ v x, (ready 4 [Inputs.present 0x200]).accepts ≠ some (.setGuard v x)) ∧
    (ready 4 [Inputs.present 0x200]).inReset = false ∧ (ready 4 [resetting]).inReset = true ∧
    (inFrame .start 3 0 false []).busy = true := by
  refine ⟨by decide, ?_, by decide, by decide, by decide⟩
  intro v x h
  rw [show (ready 4 [Inputs.present 0x200]).accepts = some (.tx 0) from by decide] at h
  cases h
theorem witness_SingleCycleCommandsLeaveThePortReady :
    (ready 4 [Inputs.present 0x100]).accepts = some (.init 0) ∧ (Instr.init 0).txClass = none := by decide
theorem witness_PinHoldKeepsThePin :
    (inFrame .start 0 0 false [request]).stalled = true ∧
    (∀ x, (ready 4 [.quiet]).accepts ≠ some (.init x)) ∧ (∀ op b, ¬ (ready 4 [.quiet]).StartsFrame op b) ∧
    ¬ ((ready 4 [.quiet]).busy = true ∧ (ready 4 [.quiet]).cyc = 0 ∧ (ready 4 [.quiet]).slot ≠ .stop) := by
  have h : (ready 4 [.quiet]).accepts = none := by decide
  refine ⟨by decide, ?_, ?_, by decide⟩
  · intro x hx; rw [h] at hx; cases hx
  · intro op b hx; rw [State.StartsFrame, h] at hx; cases hx
theorem witness_PinSetWritesTheLevelAlone :
    (let s := ({ ready 4 [Inputs.present 0x200] with pinDir := false } : State)
     s.pinDir = false ∧ exec .pinSetLow s = .next { s with pinLevel := false }) ∧
    (let s := ready 4 [Inputs.present 0x200]; s.inReset = false ∧ s.issuedPinOp s.input = .setLow) ∧
    (let s := inFrame (.data 6) 0 0 false [.quiet]; s.inReset = false ∧ s.issuedPinOp s.input = .setLow) ∧
    (let s := inFrame .start 0 1 false [.quiet]; s.inReset = false ∧ s.issuedPinOp s.input = .setHigh) ∧
    (let s := inFrame (.data 7) 0 0 false [.quiet]; s.inReset = false ∧ s.issuedPinOp s.input = .setHigh) :=
  ⟨⟨rfl, rfl⟩, by decide, by decide, by decide, by decide⟩
theorem witness_PinInitDrivesHighAtOneEdge :
    let s := ready 4 [Inputs.present 0x100]; s.issuedPinOp s.input = .init := by decide
theorem witness_PinRegistersFollowTheIssuedOperation :
    (let s := ready 4 [.quiet]; s.inReset = false ∧ s.issuedPinOp s.input = .hold) ∧
    (let s := ready 4 [Inputs.present 0x300]; s.issuedPinOp s.input = .setLow) ∧
    (let s := inFrame (.data 7) 0 0 false [.quiet]; s.issuedPinOp s.input = .setHigh) ∧
    (let s := ready 4 [Inputs.present 0x100]; s.issuedPinOp s.input = .init) := by decide
theorem witness_PinDirIsSetByInitAndClearedByReset :
    (ready 4 [Inputs.present 0x100]).inReset = false ∧ (ready 4 [resetting]).inReset = true := by decide
theorem witness_StepRunsTheAcceptedCommand :
    let s := ready 4 [Inputs.present 0x35A]; s.acceptedWord s.input = some 0x35A := by decide
theorem witness_StepRunsTheIssuedPinOperation :
    (let s := inFrame .start 0 0 false [.quiet]; s.inReset = false ∧ s.busy = true ∧ s.stalled = false) ∧
    (let s := inFrame .start 0 0 false [request]; s.inReset = false ∧ s.stalled = true) ∧
    (let s := ready 4 [.quiet]; s.inReset = false ∧ s.busy = false ∧ s.input.cmdValid = false) := by decide
theorem witness_CommandPortHandshake :
    (let s := ready 4 []; let i := Inputs.present 0x100
     i.cmdValid = true ∧ s.cmdReady = true ∧ i.rst = false ∧ i.cmd = 0x100) ∧
    (inFrame .stop 0 0 true []).cmdReady = false ∧ Inputs.quiet.cmdValid = false := by decide
theorem witness_EventsOfOneCycleAreOrdered :
    (let s := inFrame .start 0 0 false [{ request with ieWe := true }]
     resetting.rst = true ∧ s.inReset = false ∧ s.stalled = true ∧ s.input.ieWe = true) ∧
    (ready 4 [Inputs.present 0x300]).StartsFrame .txGuarded 0 ∧ guardSelect .txGuarded (ready 4 []) = true ∧
    (let s := ({ inFrame .stop 0 0 true [request] with guardAct := true, ie := false } : State)
     s.Inv ∧ s.slot = .stop ∧ s.guardAct = true) :=
  ⟨by decide, by unfold State.StartsFrame; decide, by decide,
    ⟨by decide, by decide, by decide, by decide, by decide, by decide⟩, by decide, by decide⟩
theorem witness_HostWritesIeOnlyWhenItsCodeRuns :
    (let s := ready 4 [writeIe false]
     s.inReset = false ∧ s.input.ieWe = true ∧ s.busy = false ∧ ∀ op b, s.StartsFrame op b → guardSelect op s = false) ∧
    (let s := inFrame .start 3 0 false []; s.busy = true ∧ s.stall Inputs.quiet = false) ∧
    (let s := inFrame .start 3 0 false [{ request with ieWe := true }]
     s.inReset = false ∧ s.stalled = true ∧ s.input.ieWe = true ∧ s.input.ieD = false) := by
  refine ⟨⟨by decide, by decide, by decide, ?_⟩, by decide, by decide⟩
  intro op b h
  rw [State.StartsFrame, show (ready 4 [writeIe false]).accepts = none from by decide] at h
  cases h
/-- `IE` does change, in each of the four ways. -/
theorem witness_IeHasFourWriters :
    (ready 4 [resetting]).advance.ie ≠ (ready 4 [resetting]).ie ∧
    (ready 4 [writeIe false]).advance.ie ≠ (ready 4 [writeIe false]).ie ∧
    (ready 4 [Inputs.present 0x300]).advance.ie ≠ (ready 4 [Inputs.present 0x300]).ie ∧
    (let s := ({ inFrame .stop 0 0 true [.quiet] with guardAct := true, ie := false } : State)
     s.advance.ie ≠ s.ie) := by decide
theorem witness_InterruptsWhileIdleDoNothing :
    let s := ready 4 [request]
    s.busy = false ∧ s.inReset = false ∧ s.accepts = none ∧ s.input.ieWe = false := by decide
theorem witness_OutputsOfACycle : resetting.rst = true := by decide
theorem witness_StalledCycleHoldsTheFrame :
    let s := inFrame .stop 0 0 true [{ request with ieWe := true }]; s.inReset = false ∧ s.stalled = true := by decide
theorem witness_CountDownInsideASlot :
    let s := inFrame .stop 1 0 true [.quiet]
    s.inReset = false ∧ s.busy = true ∧ s.stalled = false ∧ s.cyc ≠ 0 := by decide
theorem witness_SlotExitEntersTheNextSlot :
    ∀ sl ∈ [Slot.start, .data 0, .data 6, .data 7],
      let s := inFrame sl 0 0xA5 false [.quiet]; s.inReset = false ∧ s.stalled = false ∧ s.cyc = 0 ∧ s.slot = sl := by
  decide
theorem witness_StopExitEndsTheFrame :
    let s := inFrame .stop 0 0 true [.quiet]
    s.inReset = false ∧ s.stalled = false ∧ s.slot = .stop ∧ s.cyc = 0 := by decide
theorem witness_SlotHasNoOtherTransitions :
    (let s := ready 4 [Inputs.present 0x200]; s.inReset = false ∧ s.slot = .idle ∧ s.StartsFrame .tx 0) ∧
    (let s := ready 4 [.quiet]; s.slot = .idle ∧ ∀ op b, ¬ s.StartsFrame op b) ∧
    (let s := inFrame .start 0 0 false [request]; s.slot ≠ .idle ∧ s.stalled = true) ∧
    (let s := inFrame .start 0 0 false [.quiet]; s.slot ≠ .idle ∧ s.stalled = false ∧ s.cyc = 0) := by
  refine ⟨⟨by decide, by decide, by unfold State.StartsFrame; decide⟩, ⟨by decide, ?_⟩, by decide, by decide⟩
  intro op b h
  rw [State.StartsFrame, show (ready 4 [.quiet]).accepts = none from by decide] at h
  cases h
theorem witness_FrameKeepsItsRegisters :
    let s := inFrame .stop 0 0 true [Inputs.present 0x500]; s.inReset = false ∧ s.busy = true := by decide
theorem witness_GuardPathIsChosenAtAcceptance :
    (ready 4 [Inputs.present 0x45A]).StartsFrame .txAuto 0x5A ∧
    (let s := inFrame .start 0 0 false [.quiet]; s.inReset = false ∧ s.busy = true ∧ s.advance.busy = true) :=
  ⟨by unfold State.StartsFrame; decide, by decide⟩
theorem witness_ForceGuardGuardsEveryFrame :
    ({ ready 4 [] with cfg := { Config.smallest with forceGuard := true } } : State).cfg.forceGuard = true ∧
    ∀ op b, ¬ (inFrame .start 0 0 false [.quiet]).StartsFrame op b := by
  refine ⟨by decide, ?_⟩
  intro op b h
  rw [State.StartsFrame, show (inFrame .start 0 0 false [.quiet]).accepts = none from by decide] at h
  cases h
theorem witness_LinkConfigurationIsFixedAndUnread :
    let c := { Config.smallest with n := 4, clkHz := 9, baud := 7, profile := .fast, pinId := 5, pinOpCycles := 0 }
    c ≠ (ready 4 []).cfg ∧ c.n = (ready 4 []).cfg.n ∧ c.forceGuard = (ready 4 []).cfg.forceGuard ∧
    c.pinLevelReset = (ready 4 []).cfg.pinLevelReset ∧ c.ieReset = (ready 4 []).cfg.ieReset ∧
    c.cycReset = (ready 4 []).cfg.cycReset ∧ c.txdReset = (ready 4 []).cfg.txdReset := by decide
theorem witness_InvariantHoldsAtReset : Config.smallest.valid = true ∧ Config.smallest.admissible = true := by decide
theorem witness_StepKeepsTheInvariant :
    (ready 2 [Inputs.present 0x200]).Inv ∧ (inFrame (.data 7) 0 0x80 true [.quiet]).Inv :=
  ⟨⟨by decide, by decide, by decide, by decide, by decide, by decide⟩,
   ⟨by decide, by decide, by decide, by decide, by decide, by decide⟩⟩
/-- From reset, an accepted INIT makes the clauses on the idle level and the direction say something. -/
theorem witness_ReachableStatesMeetTheStateInvariants :
    let s := State.fromReset Config.smallest [Inputs.present 0x100] 0
    Config.smallest.valid = true ∧ s.ResetFree 1 ∧ (s.stateAt 0).accepts = some (.init 0) ∧
    (s.stateAt 1).slot = .idle ∧ (s.stateAt 1).pinDir = true :=
  ⟨by decide, State.resetFree_of_inputs (by decide), by decide, by decide, by decide⟩
theorem witness_FramePositionCountsUnstalledCycles :
    2 ≤ sending.cfg.n ∧ sending.StartsFrame .tx 0xA5 ∧ sending.ResetFree 3 ∧
    sending.progress 3 < 10 * sending.cfg.n ∧ stalledSending.progress 5 < 10 * stalledSending.cfg.n :=
  ⟨by decide, sending_starts, sending_resetFree 3 (by decide), by decide, by decide⟩
theorem witness_UnstalledFrameWaveform :
    2 ≤ sending.cfg.n ∧ sending.StartsFrame .tx 0xA5 ∧ sending.pinDir = true ∧
    sending.ResetFree (10 * sending.cfg.n + 1) ∧ sending.StallFree (10 * sending.cfg.n + 1) :=
  ⟨by decide, sending_starts, by decide, sending_resetFree _ (by decide), sending_stallFree _ (by decide)⟩
theorem witness_FrameDuration :
    (2 ≤ sending.cfg.n ∧ sending.StartsFrame .tx 0xA5 ∧ sending.ResetFree (10 * sending.cfg.n + 1) ∧
      sending.StallFree (10 * sending.cfg.n + 1)) ∧
    (stalledSending.StartsFrame .tx 0xA5 ∧ stalledSending.ResetFree 23 ∧
      (∀ j, 1 ≤ j → j < 23 → (stalledSending.stateAt j).busy = true) ∧ (stalledSending.stateAt 23).busy = false) :=
  ⟨⟨by decide, sending_starts, sending_resetFree _ (by decide), sending_stallFree _ (by decide)⟩,
   stalledSending_starts, stalledSending_resetFree, stalledSending_busy, by decide +kernel⟩
theorem witness_StalledFrameWaveform :
    2 ≤ stalledSending.cfg.n ∧ stalledSending.StartsFrame .tx 0xA5 ∧ stalledSending.ResetFree 23 ∧
    (∀ j, 1 ≤ j → j < 23 → (stalledSending.stateAt j).busy = true) ∧ (stalledSending.stateAt 23).busy = false ∧
    stalledSending.stallsInSlot 1 23 = 2 :=
  ⟨by decide, stalledSending_starts, stalledSending_resetFree, stalledSending_busy, by decide +kernel, by decide +kernel⟩
theorem witness_GuardedFrameIsNeverStalled :
    2 ≤ guardedSending.cfg.n ∧ guardedSending.StartsFrame .txGuarded 0xA5 ∧
    guardSelect .txGuarded guardedSending = true ∧ guardedSending.ResetFree (10 * guardedSending.cfg.n + 1) ∧
    (guardedSending.inputAt 1).irq = true :=
  ⟨by decide, guardedSending_starts, by decide, guardedSending_resetFree, by decide⟩
theorem witness_GuardedFrameEndsWithInterruptsEnabled :
    2 ≤ guardedSending.cfg.n ∧ guardedSending.StartsFrame .txGuarded 0xA5 ∧
    guardSelect .txGuarded guardedSending = true ∧ guardedSending.ResetFree (10 * guardedSending.cfg.n + 1) :=
  ⟨by decide, guardedSending_starts, by decide, guardedSending_resetFree⟩
theorem witness_TimingIsIndependentOfTheData :
    SameTiming (inFrame (.data 0) 1 0xA5 true [Inputs.present 0x2A5]) (inFrame (.data 0) 1 0x5A false [Inputs.present 0x25A]) :=
  ⟨rfl, rfl, rfl, rfl, rfl, rfl, rfl, rfl,
    .cons ⟨rfl, rfl, rfl, rfl, rfl, .inr ⟨.tx, 0xA5, 0x5A, by decide, by decide⟩⟩ .nil⟩
theorem witness_IdleTxdAndCycAreUnread : (ready 4 [Inputs.present 0x2A5]).slot = .idle := by decide
theorem witness_StartEdgeEndsTheAcceptanceCycle :
    2 ≤ sending.cfg.n ∧ sending.StartsFrame .tx 0xA5 ∧ step sending = .next sending.advance ∧
    sending.Inv ∧ sending.pinDir = true :=
  ⟨by decide, sending_starts, step_eq_advance _,
    ⟨by decide, by decide, by decide, by decide, by decide, by decide⟩, by decide⟩
theorem witness_PadNeverShowsTheResetLevel :
    let s := ({ ready 2 [Inputs.present 0x100] with pinLevel := false, pinDir := false } : State)
    s.inReset = false ∧ s.pinDir = false ∧ s.advance.pad = .high := by decide
theorem sending_busy : ∀ j, 1 ≤ j → j < 21 → (sending.stateAt j).busy = true := fun j h1 h2 =>
  (by decide +kernel : ∀ j < 21, 1 ≤ j → (sending.stateAt j).busy = true) j h2 h1
theorem witness_GapBetweenFrames :
    2 ≤ sending.cfg.n ∧ sending.StartsFrame .tx 0xA5 ∧ sending.ResetFree 22 ∧
    (∀ j, 1 ≤ j → j < 21 → (sending.stateAt j).busy = true) ∧ (sending.stateAt 21).busy = false ∧
    sending.StallFree 21 ∧ (sending.stateAt 21).StartsFrame .tx 1 :=
  ⟨by decide, sending_starts, sending_resetFree _ (by decide), sending_busy, by decide +kernel,
    sending_stallFree _ (by decide), by unfold State.StartsFrame; decide +kernel⟩
theorem witness_FramesNeverOverlap :
    2 ≤ sending.cfg.n ∧ sending.StartsFrame .tx 0xA5 ∧ sending.ResetFree 21 ∧ (sending.stateAt 21).StartsFrame .tx 1 :=
  ⟨by decide, sending_starts, sending_resetFree 21 (by decide), by unfold State.StartsFrame; decide +kernel⟩
theorem witness_HeldCommandWaitsForTheFrame :
    2 ≤ sending.cfg.n ∧ sending.StartsFrame .tx 0xA5 ∧ sending.ResetFree (10 * sending.cfg.n + 2) ∧
    sending.StallFree (10 * sending.cfg.n + 1) ∧
    (∀ j, 1 ≤ j → j ≤ 10 * sending.cfg.n + 1 → (sending.inputAt j).cmdValid = true ∧ (sending.inputAt j).cmd = 0x201) :=
  ⟨by decide, sending_starts, sending_resetFree _ (by decide), sending_stallFree _ (by decide), fun j h1 h2 =>
    (by decide : ∀ j < 22, 1 ≤ j → (sending.inputAt j).cmdValid = true ∧ (sending.inputAt j).cmd = 0x201) j
      (Nat.lt_succ_of_le h2) h1⟩
theorem witness_FrameBeforeInitIsNotDriven :
    let s := ({ ready 2 [Inputs.present 0x200, .quiet] with pinDir := false } : State)
    s.StartsFrame .tx 0 ∧ s.pinDir = false ∧ s.ResetFree 2 ∧ (∀ j, 1 ≤ j → j < 2 → (s.stateAt j).busy = true) := by
  refine ⟨by unfold State.StartsFrame; decide, by decide, State.resetFree_of_inputs (by decide), ?_⟩
  intro j h1 h2
  obtain rfl : j = 1 := by omega
  decide
theorem witness_StalledFrameWaitsForEver :
    let s := inFrame (.data 0) 0 0x0F true [request, { request with ieWe := true, ieD := true }]
    (s.busy = true ∧ s.ie = true ∧ ∀ j < 2, (s.inputAt j).rst = false ∧ (s.inputAt j).irq = true ∧
      ((s.inputAt j).ieWe = true → (s.inputAt j).ieD = true)) ∧
    (∀ j < 2, (s.stateAt j).inReset = false ∧ (s.stateAt j).stalled = true) := by decide
theorem witness_SlotCodesAreInVisitingOrder : Slot.start ≠ .idle ∧ Slot.start ≠ .stop := by decide

end Sys2Proof.Machine.Tests
end

section
/-! PROOFS of the family `00_scope`: what a step reads of the configuration (spec 00_scope.md R6, R7, R9, R12). Each
shared operation commutes with replacing the parameters, under the agreement of those it reads and of no other. -/

namespace Sys2Proof.Machine

/-- The two configurations agree in the parameters that the run-time rules read: the bit period (R7), `FORCE_GUARD`
(R126) and the reset values (R161). -/
structure SameRuntimeParameters (c d : Config) : Prop where
  n : c.n = d.n
  forceGuard : c.forceGuard = d.forceGuard
  pinLevelReset : c.pinLevelReset = d.pinLevelReset
  ieReset : c.ieReset = d.ieReset
  cycReset : c.cycReset = d.cycReset
  txdReset : c.txdReset = d.txdReset

/-- The same registers, schedule and cycle number in a block with the parameters `c`. -/
def State.withCfg (c : Config) (s : State) : State := { s with cfg := c }

variable (c : Config) (s : State)

/-! Signals and operations that read no parameter -/

@[simp] theorem State.withCfg_busy : (s.withCfg c).busy = s.busy := rfl
@[simp] theorem State.withCfg_input : (s.withCfg c).input = s.input := rfl
@[simp] theorem State.withCfg_inReset : (s.withCfg c).inReset = s.inReset := rfl
@[simp] theorem State.withCfg_stalled : (s.withCfg c).stalled = s.stalled := rfl
@[simp] theorem State.withCfg_slotPinOp : (s.withCfg c).slotPinOp = s.slotPinOp := rfl
@[simp] theorem State.withCfg_tick : (s.withCfg c).tick = s.tick.withCfg c := rfl
@[simp] theorem State.withCfg_hostIeWrite (i : Inputs) :
    (s.withCfg c).hostIeWrite i = (s.hostIeWrite i).withCfg c := rfl
@[simp] theorem State.withCfg_pinOp (p : PinOp) : (s.withCfg c).pinOp p = (s.pinOp p).withCfg c := by
  cases p <;> rfl

/-! Operations that read parameters -/

variable {c s}

/-- `GuardSelect` reads `FORCE_GUARD` (R120). -/
theorem guardSelect_withCfg (hf : c.forceGuard = s.cfg.forceGuard) (op : TxOp) :
    guardSelect op (s.withCfg c) = guardSelect op s := by
  cases op with
  | tx => exact hf
  | txGuarded => rfl
  | txAuto => exact congrArg (· || s.guardEn) hf

/-- Entering a slot reads `N` (R100, R102 to R104). -/
theorem State.withCfg_enterSlot (hn : c.n = s.cfg.n) (sl : Slot) :
    (s.withCfg c).enterSlot sl = (s.enterSlot sl).withCfg c := by
  simp [State.enterSlot, State.withCfg, hn]

/-- `StartFrame` reads `N`, by the entry to START (R100). -/
theorem State.withCfg_startFrame (hn : c.n = s.cfg.n) (b : Byte) (g : Bool) :
    (s.withCfg c).startFrame b g = (s.startFrame b g).withCfg c := by
  simp [State.startFrame_eq, State.withCfg, hn]

/-- The slot rules read `N`, where they enter a slot, and no other parameter (R101 to R105). -/
theorem State.withCfg_advanceSlot (hn : c.n = s.cfg.n) :
    (s.withCfg c).advanceSlot = s.advanceSlot.withCfg c := by
  by_cases hc : s.cyc = 0
  · cases hsl : s.slot with
    | idle | stop => simp [State.advanceSlot, State.withCfg, State.endFrame, State.guardExit, hc, hsl]
    | start | data k => simpa [State.advanceSlot, State.withCfg, hc, hsl] using State.withCfg_enterSlot hn _
  · simp [State.advanceSlot, State.withCfg, State.countDown, hc]

/-- A command reads `N` and `FORCE_GUARD`, where it starts a frame, and no other parameter (R132). -/
theorem afterCommand_withCfg (hn : c.n = s.cfg.n) (hf : c.forceGuard = s.cfg.forceGuard) (i : Instr) :
    afterCommand i (s.withCfg c) = (afterCommand i s).withCfg c := by
  cases i with
  | tx b | txGuarded b | txAuto b =>
    simp only [afterCommand, guardSelect_withCfg hf, State.withCfg_startFrame hn]
  | init | pinHold | pinSetLow | pinSetHigh | pinInit => simp only [afterCommand, State.withCfg_pinOp]
  | reserved0 | reserved6 | reserved7 | setGuard => rfl

/-- Reset reads the reset values, and `N` for the width of `CYC` (R12, R161). -/
theorem State.withCfg_toReset (h : SameRuntimeParameters c s.cfg) :
    (s.withCfg c).toReset = s.toReset.withCfg c := by
  simp [State.toReset, State.resetOf, State.withCfg, Config.cycWidth, h.n, h.pinLevelReset, h.ieReset, h.cycReset,
    h.txdReset]

/-! The step -/

/-- A step reads no parameter but the run-time ones, in any of its kinds of cycle (R135). -/
theorem State.withCfg_advance (h : SameRuntimeParameters c s.cfg) :
    (s.withCfg c).advance = s.advance.withCfg c := by
  cases hr : s.inReset with
  | true =>
    rw [State.advance_of_reset hr, State.advance_of_reset (s := s.withCfg c) hr, State.withCfg_tick]
    exact State.withCfg_toReset (s := s.tick) h
  | false =>
  cases hb : s.busy with
  | false =>
    rw [State.advance_of_idle hr hb, State.advance_of_idle (s := s.withCfg c) hr hb]
    simp only [State.withCfg_input, State.withCfg_tick, State.withCfg_hostIeWrite,
      afterCommand_withCfg (s := s.tick.hostIeWrite s.input) h.n h.forceGuard, apply_ite (State.withCfg c)]
  | true =>
  cases hs : s.stalled with
  | true =>
    rw [State.advance_of_stall hr hs, State.advance_of_stall (s := s.withCfg c) hr hs]
    simp
  | false =>
    rw [State.advance_of_progress hr hs hb, State.advance_of_progress (s := s.withCfg c) hr hs hb]
    simp [State.withCfg_advanceSlot (s := s.tick) h.n]

/-- Settles O35: a step keeps the configuration, and it commutes with exchanging the parameters it does not read. -/
theorem linkConfigurationIsFixedAndUnread : Obligations.LinkConfigurationIsFixedAndUnread := by
  intro s t c h
  obtain rfl := eq_advance_of_step h
  refine ⟨s.advance_model_fields.1, fun hn hf hp hi hc ht => ?_⟩
  calc step (s.withCfg c)
    _ = .next (s.withCfg c).advance := step_eq_advance _
    _ = .next (s.advance.withCfg c) := congrArg _ (State.withCfg_advance ⟨hn, hf, hp, hi, hc, ht⟩)

end Sys2Proof.Machine
end

section
/-! PROOFS of the family `10_state`: the kinds of cycle outside reset, the invariant of R47 along a run, and the pin
before the first INIT (spec 10_state.md R28, R45, R47). -/

namespace Sys2Proof.Machine

/-! What one cycle outside reset does -/

/-- The opcode map yields commands of the port, never a pin operation (R71). -/
theorem decodeCommand_format (w : CommandWord) : (decodeCommand w).format = .h := by
  unfold decodeCommand; split <;> rfl

/-- A command of the port is INIT, starts a frame, or writes `GUARD_EN` at most (R132). -/
theorem afterCommand_cases {i : Instr} (h : i.format = .h) (s : State) :
    (∃ x, i = .init x ∧ afterCommand i s = s.pinOp .init) ∨
    (∃ op b, i = TxOp.toInstr op b ∧ afterCommand i s = s.startFrame b (guardSelect op s)) ∨
    ((∀ x, i ≠ .init x) ∧ (∀ op b, i ≠ TxOp.toInstr op b) ∧ ∃ v, afterCommand i s = s.setGuardEn v) := by
  have hne : i.txClass = none → ∀ op b, i ≠ TxOp.toInstr op b := by
    rintro hi op b rfl; cases op <;> cases hi
  cases i with
  | init x => exact .inl ⟨x, rfl, rfl⟩
  | tx b => exact .inr (.inl ⟨.tx, b, rfl, rfl⟩)
  | txGuarded b => exact .inr (.inl ⟨.txGuarded, b, rfl, rfl⟩)
  | txAuto b => exact .inr (.inl ⟨.txAuto, b, rfl, rfl⟩)
  | setGuard v x => exact .inr (.inr ⟨nofun, hne rfl, v, rfl⟩)
  | reserved0 | reserved6 | reserved7 => exact .inr (.inr ⟨nofun, hne rfl, s.guardEn, rfl⟩)
  | pinHold | pinSetLow | pinSetHigh | pinInit => cases h

/-- A slot rule counts down, enters the next slot at its level, or ends the frame (R101 to R105). -/
theorem State.slotRule_outcome {s : State} (hb : s.busy = true) :
    (s.cyc ≠ 0 ∧ s.advanceSlot.pinOp s.slotPinOp = s.countDown) ∨
    (s.cyc = 0 ∧ ∃ l, slotLevel s.slot.next s.txd = some l ∧
      s.advanceSlot.pinOp s.slotPinOp = { s.enterSlot s.slot.next with pinLevel := l }) ∨
    (s.cyc = 0 ∧ s.slot = .stop ∧ s.advanceSlot.pinOp s.slotPinOp = s.endFrame) := by
  rcases s.slotRule_cases hb with
    ⟨hc, hp, ha⟩ | ⟨hc, hsl, hp, ha⟩ | ⟨k, hk, hc, hsl, hp, ha⟩ | ⟨hc, hsl, hp, ha⟩ | ⟨hc, hsl, hp, ha⟩
  · exact .inl ⟨hc, by rw [hp, ha]; rfl⟩
  · exact .inr (.inl ⟨hc, _, by rw [hsl]; rfl, by rw [hp, ha, hsl, State.pinOp_levelPinOp]; rfl⟩)
  · have hn : s.slot.next = .data ⟨k.val + 1, hk⟩ := by simp [hsl, Slot.next, hk]
    exact .inr (.inl ⟨hc, _, by rw [hn]; rfl, by rw [hp, ha, hn, State.pinOp_levelPinOp]⟩)
  · exact .inr (.inl ⟨hc, _, by rw [hsl]; rfl, by rw [hp, ha, hsl]; rfl⟩)
  · exact .inr (.inr ⟨hc, hsl, by rw [hp, ha]; rfl⟩)

/-- What happens in a cycle outside reset that takes `s` to `t`. -/
inductive State.Transition (s t : State) : Prop
  /-- a stalled cycle (R146) -/
  | stall (hb : s.busy = true) (hs : s.stalled = true) (ht : t = s.tick.hostIeWrite s.input)
  /-- count-down inside a slot (R101) -/
  | count (hb : s.busy = true) (hs : s.stalled = false) (hc : s.cyc ≠ 0) (ht : t = s.tick.countDown)
  /-- the next slot of the frame is entered (R102 to R104) -/
  | enter (hb : s.busy = true) (hs : s.stalled = false) (hc : s.cyc = 0) (l : Bool)
      (hl : slotLevel s.slot.next s.txd = some l) (ht : t = { s.tick.enterSlot s.slot.next with pinLevel := l })
  /-- the frame ends (R105) -/
  | finish (hs : s.stalled = false) (hc : s.cyc = 0) (hsl : s.slot = .stop) (ht : t = s.tick.endFrame)
  /-- an INIT is accepted (R94) -/
  | init (hb : s.busy = false) (x : Byte) (ha : s.accepts = some (.init x))
      (ht : t = (s.tick.hostIeWrite s.input).pinOp .init)
  /-- a command of the TX class is accepted (R100) -/
  | start (hb : s.busy = false) (op : TxOp) (b : Byte) (ha : s.StartsFrame op b)
      (ht : t = (s.tick.hostIeWrite s.input).startFrame b (guardSelect op s))
  /-- an idle cycle without either: `GUARD_EN` and, by the host, `IE` may be written (R73, R123, R148) -/
  | idle (hb : s.busy = false) (hi : ∀ x, s.accepts ≠ some (.init x)) (hf : ∀ op b, ¬ s.StartsFrame op b) (v : Bool)
      (ht : t = (s.tick.hostIeWrite s.input).setGuardEn v)

/-- Every cycle outside reset is of one of the seven kinds (R135). -/
theorem State.transition_of_step {s t : State} (hr : s.inReset = false) (h : step s = .next t) : s.Transition t := by
  rcases step_cases h with ⟨a, _⟩ | ⟨_, hs, ht⟩ | ⟨_, hs, hb, ht⟩ | ⟨_, hb, hv, ht⟩ | ⟨_, hb, hv, ht⟩
  · exact absurd (a.symm.trans hr) (by decide)
  · exact .stall ((State.stall_iff _ _).1 hs).1 hs ht
  · rcases State.slotRule_outcome (s := s.tick) hb with ⟨hc, he⟩ | ⟨hc, l, hl, he⟩ | ⟨hc, hsl, he⟩
    · exact .count hb hs hc (ht.trans he)
    · exact .enter hb hs hc l hl (ht.trans he)
    · exact .finish hs hc hsl (ht.trans he)
  · have ha : s.accepts = some (decodeCommand s.input.cmd) := State.accepts_eq_some.2 ⟨hr, hb, hv, rfl⟩
    rcases afterCommand_cases (decodeCommand_format s.input.cmd) (s.tick.hostIeWrite s.input) with
      ⟨x, hi, he⟩ | ⟨op, b, hi, he⟩ | ⟨hi, hf, v, he⟩
    · exact .init hb x (ha.trans (congrArg some hi)) (ht.trans he)
    · exact .start hb op b (ha.trans (congrArg some hi)) (ht.trans he)
    · exact .idle hb (fun x e => hi x (Option.some.inj (ha.symm.trans e)))
        (fun op b e => hf op b (Option.some.inj (ha.symm.trans e))) v (ht.trans he)
  · have ha : s.accepts = none := by simp [State.accepts, State.acceptedWord, hv]
    exact .idle hb (by simp [ha]) (by simp [State.StartsFrame, ha]) s.guardEn ht

/-- While a frame is in flight no command is accepted (R130). -/
theorem State.accepts_of_busy {s : State} (hb : s.busy = true) : s.accepts = none := by
  simp [State.accepts, State.acceptedWord, hb]

/-- A cycle that starts a frame accepts no INIT. -/
theorem State.StartsFrame.accepts_ne_init {s : State} {op : TxOp} {b : Byte} (h : s.StartsFrame op b) (x : Byte) :
    s.accepts ≠ some (.init x) := by
  intro hi
  cases op <;> cases h.symm.trans hi

/-! The direction of the pin (R28) -/

/-- Outside reset `PIN_DIR` is set by an accepted INIT and by nothing else (R28). -/
theorem State.Transition.pinDir_iff {s t : State} (h : s.Transition t) :
    t.pinDir = true ↔ s.pinDir = true ∨ ∃ x, s.accepts = some (.init x) := by
  cases h with
  | stall hb _ ht | count hb _ _ ht | enter hb _ _ _ _ ht => simp [ht, State.accepts_of_busy hb]
  | finish _ _ hsl ht => simp [ht, State.accepts_of_busy ((State.busy_iff s).2 (by simp [hsl]))]
  | init _ x ha ht => simp [ht, ha]
  | start _ op b ha ht => simp [ht, ha.accepts_ne_init]
  | idle _ hi _ v ht => simp [ht, hi]

/-- Settles O16: no kind of cycle but an accepted INIT sets `PIN_DIR`, and `ResetState` has it 0. -/
theorem pinDirIsSetByInitAndClearedByReset : Obligations.PinDirIsSetByInitAndClearedByReset := by
  refine ⟨fun s t hr h => (State.transition_of_step hr h).pinDir_iff, fun s t hr h => ?_, fun _ _ => rfl, fun _ => rfl⟩
  rw [eq_advance_of_step h, State.advance_of_reset hr, State.toReset_pinDir]

/-! The invariant is kept (R47) -/

/-- The reset state of a block with `N >= 2` meets the invariant (R161). -/
theorem State.inv_toReset {s : State} (hn : 2 ≤ s.cfg.n) : s.toReset.Inv where
  period := hn
  cycBound := nofun
  cycWidth := Nat.mod_lt _ (by positivity)
  guarded := nofun
  level := nofun
  idleHigh := nofun

/-- The registers the invariant speaks of do not move with the schedule. -/
theorem State.Inv.tick {s : State} (h : s.Inv) : s.tick.Inv :=
  ⟨h.period, h.cycBound, h.cycWidth, h.guarded, h.level, h.idleHigh⟩

/-- The host cannot set `IE` in a guarded frame: such a frame is not stalled (R127, R148). -/
theorem State.Inv.hostIeWrite {s : State} (h : s.Inv) (i : Inputs) : (s.hostIeWrite i).Inv := by
  refine ⟨h.period, h.cycBound, h.cycWidth, fun hg => ?_, h.level, h.idleHigh⟩
  obtain ⟨hb, hie⟩ := h.guarded hg
  rw [State.hostIeWrite_of_progress hb (by simp [State.stall, hie])]
  exact ⟨hb, hie⟩

/-- The invariant says nothing of `GUARD_EN`. -/
theorem State.Inv.setGuardEn {s : State} (h : s.Inv) (v : Bool) : (s.setGuardEn v).Inv :=
  ⟨h.period, h.cycBound, h.cycWidth, h.guarded, h.level, h.idleHigh⟩

/-- Counting down keeps `CYC` within its bounds (R101). -/
theorem State.Inv.countDown {s : State} (h : s.Inv) : s.countDown.Inv :=
  ⟨h.period, fun hb => (Nat.sub_le _ _).trans (h.cycBound hb), (Nat.sub_le _ _).trans_lt h.cycWidth, h.guarded, h.level,
    h.idleHigh⟩

/-- An accepted INIT leaves an idle line HIGH (R94). -/
theorem State.Inv.pinOp_init {s : State} (h : s.Inv) (hb : s.busy = false) : (s.pinOp .init).Inv where
  period := h.period
  cycBound := h.cycBound
  cycWidth := h.cycWidth
  guarded := h.guarded
  level := by simp [(State.not_busy_iff s).1 hb, slotLevel]
  idleHigh := fun _ _ => rfl

/-- A full count fits the width of `CYC` (R12). -/
theorem period_sub_one_lt_two_pow_cycWidth (c : Config) : c.n - 1 < 2 ^ c.cycWidth := Nat.lt_log2_self

/-- A slot with a level of its own is a slot of a frame. -/
theorem State.busy_of_slotLevel {s : State} {l : Bool} {txd : Byte} (h : slotLevel s.slot txd = some l) : s.busy = true :=
  (State.busy_iff s).2 fun hi => by simp [hi, slotLevel] at h

/-- Entering a slot of a frame at the slot's level keeps the invariant (R102 to R104). -/
theorem State.Inv.enterSlot {s : State} (h : s.Inv) {sl : Slot} {l : Bool} (hl : slotLevel sl s.txd = some l) :
    ({ s.enterSlot sl with pinLevel := l } : State).Inv where
  period := h.period
  cycBound := fun _ => le_rfl
  cycWidth := period_sub_one_lt_two_pow_cycWidth s.cfg
  guarded := fun hg => ⟨State.busy_of_slotLevel hl, (h.guarded hg).2⟩
  level := fun _ hl' => Option.some.inj (hl.symm.trans hl')
  idleHigh := by rintro rfl; cases hl

/-- A frame starts at LOW, and a guarded one with `IE = 0` (R100, R124). -/
theorem State.Inv.startFrame {s : State} (h : s.Inv) (b : Byte) (g : Bool) : (s.startFrame b g).Inv where
  period := h.period
  cycBound := fun _ => le_rfl
  cycWidth := period_sub_one_lt_two_pow_cycWidth s.cfg
  guarded := by rintro rfl; exact ⟨rfl, rfl⟩
  level := fun _ hl => Option.some.inj hl
  idleHigh := nofun

/-- In the stop slot the line is HIGH (R104). -/
theorem State.Inv.pinLevel_of_stop {s : State} (h : s.Inv) (hsl : s.slot = .stop) : s.pinLevel = true :=
  h.level true (by rw [hsl]; rfl)

/-- A frame ends with the line HIGH, as its stop slot left it (R105). -/
theorem State.Inv.endFrame {s : State} (h : s.Inv) (hsl : s.slot = .stop) : s.endFrame.Inv where
  period := h.period
  cycBound := nofun
  cycWidth := h.cycWidth
  guarded := nofun
  level := nofun
  idleHigh := fun _ _ => h.pinLevel_of_stop hsl

/-- Every kind of cycle outside reset keeps the invariant. -/
theorem State.Inv.of_transition {s t : State} (h : s.Inv) (ht : s.Transition t) : t.Inv := by
  cases ht with
  | stall _ _ ht => exact ht ▸ h.tick.hostIeWrite _
  | count _ _ _ ht => exact ht ▸ h.tick.countDown
  | enter _ _ _ l hl ht => exact ht ▸ h.tick.enterSlot hl
  | finish _ _ hsl ht => exact ht ▸ h.tick.endFrame hsl
  | init hb x _ ht => exact ht ▸ (h.tick.hostIeWrite _).pinOp_init hb
  | start _ op b _ ht => exact ht ▸ (h.tick.hostIeWrite _).startFrame _ _
  | idle _ _ _ v ht => exact ht ▸ (h.tick.hostIeWrite _).setGuardEn v

/-- Every step keeps the invariant, a reset cycle too. -/
theorem State.Inv.of_step {s t : State} (h : s.Inv) (hst : step s = .next t) : t.Inv := by
  cases hr : s.inReset with
  | false => exact h.of_transition (State.transition_of_step hr hst)
  | true =>
    rw [eq_advance_of_step hst, State.advance_of_reset hr]
    exact State.inv_toReset (s := s.tick) h.period

/-- Every state of a run meets the invariant where the first one does. -/
theorem State.Inv.stateAt {s : State} (h : s.Inv) : ∀ k, (s.stateAt k).Inv
  | 0 => h
  | k + 1 => (h.stateAt k).of_step (step_eq_advance _)

/-- A valid configuration has `N >= 2` (R10). -/
theorem two_le_period_of_valid {c : Config} (h : c.valid = true) : 2 ≤ c.n := by
  simp only [Config.valid, Bool.and_eq_true, decide_eq_true_eq] at h
  exact h.2

/-- A block in reset meets the invariant, under every schedule. -/
theorem State.inv_fromReset {c : Config} (h : c.valid = true) (l : List Inputs) (n : Nat) :
    (State.fromReset c l n).Inv :=
  State.inv_toReset (s := State.fromReset c l n) (two_le_period_of_valid h)

/-! What a run since the last reset has done (R47 (e), (f)) -/

/-- A cycle that leads to IDLE leaves the line HIGH, or it was idle itself, accepted no INIT and kept the level. -/
theorem State.Inv.idle_pinLevel {s t : State} (h : s.Inv) (ht : s.Transition t) (hi : t.slot = .idle) :
    t.pinLevel = true ∨ (s.slot = .idle ∧ (∀ x, s.accepts ≠ some (.init x)) ∧ t.pinLevel = s.pinLevel) := by
  cases ht with
  | stall hb _ ht | count hb _ _ ht => exact absurd (by simpa [ht] using hi) ((State.busy_iff s).1 hb)
  | enter _ _ _ l hl ht =>
    have hn : s.slot.next = .idle := by simpa [ht] using hi
    rw [hn] at hl; cases hl
  | finish _ _ hsl ht => exact .inl (by simpa [ht] using h.pinLevel_of_stop hsl)
  | init _ x _ ht => exact .inl (by simp [ht])
  | start _ op b _ ht => simp [ht] at hi
  | idle hb hni _ v ht => exact .inr ⟨(State.not_busy_iff s).1 hb, hni, by simp [ht]⟩

/-- `PIN_LEVEL` of an idle block is 1 once an INIT was accepted or a frame completed (R47 (e)). -/
theorem State.Inv.idle_pinLevel_stateAt {s : State} (h : s.Inv) {k : Nat} (hr : s.ResetFree k)
    (hi : (s.stateAt k).slot = .idle)
    (hd : ∃ j < k, (∃ x, (s.stateAt j).accepts = some (.init x)) ∨ s.CompletesFrame j) :
    (s.stateAt k).pinLevel = true := by
  induction k with
  | zero => obtain ⟨j, hj, _⟩ := hd; cases hj
  | succ k ih =>
    have ht := State.transition_of_step (hr k k.lt_succ_self) (step_eq_advance _)
    rcases (h.stateAt k).idle_pinLevel ht hi with hl | ⟨hik, hni, hl⟩
    · exact hl
    · rcases Nat.exists_lt_succ_right.1 hd with hd | ⟨x, ha⟩ | ⟨hstop, _⟩
      · exact hl.trans (ih (fun j hj => hr j (hj.trans k.lt_succ_self)) hik hd)
      · exact absurd ha (hni x)
      · cases hstop.symm.trans hik

/-- `PIN_DIR` is what it was before the run, or an INIT was accepted in it (R47 (f)). -/
theorem State.pinDir_stateAt_iff {s : State} {k : Nat} (hr : s.ResetFree k) :
    (s.stateAt k).pinDir = true ↔ s.pinDir = true ∨ ∃ j < k, ∃ x, (s.stateAt j).accepts = some (.init x) := by
  induction k with
  | zero => simp [State.stateAt]
  | succ k ih =>
    have ht := State.transition_of_step (hr k k.lt_succ_self) (step_eq_advance _)
    rw [State.stateAt, ht.pinDir_iff, ih fun j hj => hr j (hj.trans k.lt_succ_self), Nat.exists_lt_succ_right, or_assoc]

/-- A slot's code is at most 10 (R75). -/
theorem Slot.code_le (sl : Slot) : sl.code.toNat ≤ 10 := by
  cases sl with
  | idle | start | stop => decide
  | data k => revert k; decide

/-- Settles O38: (a) to (d) and the levels in a frame from the invariant; the idle level and the direction by induction
over the cycles since reset. -/
theorem reachableStatesMeetTheStateInvariants : Obligations.ReachableStatesMeetTheStateInvariants := by
  intro c l n k hc hr run s
  have h0 := State.inv_fromReset hc l n
  have h : s.Inv := h0.stateAt k
  refine ⟨s.slot.code_le, fun hi => h.cycBound ((State.busy_iff s).2 hi), fun hg => ?_, fun hsl => ?_, fun d hsl => ?_,
    h.pinLevel_of_stop, h0.idle_pinLevel_stateAt hr, ?_⟩
  · obtain ⟨hb, hie⟩ := h.guarded hg
    exact ⟨(State.busy_iff s).1 hb, hie⟩
  · exact h.level _ (by rw [hsl]; rfl)
  · exact h.level _ (by rw [hsl]; rfl)
  · exact (State.pinDir_stateAt_iff hr).trans (or_iff_right nofun)

/-! The pin before the first INIT (R45) -/

/-- An undriven pad is `Z` (R95). -/
theorem State.pad_of_undriven {s : State} (h : s.pinDir = false) : s.pad = .z := by simp [State.pad, h]

/-- The cycle that makes `PIN_DIR` 1 makes the pad HIGH (R45, R93). -/
theorem State.Transition.pad_of_undriven {s t : State} (h : s.Transition t) (hd : s.pinDir = false) :
    t.pad = .z ∨ (t.pad = .high ∧ ∃ x, s.accepts = some (.init x)) := by
  cases h with
  | stall _ _ ht | count _ _ _ ht | enter _ _ _ _ _ ht | finish _ _ _ ht | start _ _ _ _ ht | idle _ _ _ _ ht =>
    exact .inl (State.pad_of_undriven (by simp [ht, hd]))
  | init _ x ha ht => exact .inr ⟨by simp [ht, State.pad], x, ha⟩

/-- The same block built with `PIN_LEVEL_RESET = v`, its pin at the level `l` where it is not driven. -/
def State.withHidden (v l : Bool) (s : State) : State :=
  { s with cfg := { s.cfg with pinLevelReset := v }, pinLevel := bif s.pinDir then s.pinLevel else l }

/-- The pad does not show what `withHidden` replaces (R95). -/
theorem State.withHidden_pad (v l : Bool) (s : State) : (s.withHidden v l).pad = s.pad := by
  cases hd : s.pinDir <;> simp [State.withHidden, State.pad, hd]

/-- The host's schedule is not hidden. -/
theorem State.withHidden_input (v l : Bool) (s : State) : (s.withHidden v l).input = s.input := rfl

/-- A pin operation leaves no other trace of the hidden level than a hidden level (R90 to R93). -/
theorem State.withHidden_pinOp (v l : Bool) (p : PinOp) (s : State) :
    ∃ l', (s.withHidden v l).pinOp p = (s.pinOp p).withHidden v l' := by
  cases p with
  | hold => exact ⟨l, rfl⟩
  | setLow => exact ⟨false, by simp [State.withHidden, State.pinOp]⟩
  | setHigh => exact ⟨true, by simp [State.withHidden, State.pinOp]⟩
  | init => exact ⟨l, rfl⟩

/-- The start of a frame overwrites the level, driven or not (R100). -/
theorem State.withHidden_startFrame (v l : Bool) (b : Byte) (g : Bool) (s : State) :
    (s.withHidden v l).startFrame b g = (s.startFrame b g).withHidden v false := by
  simp [State.withHidden, State.startFrame_eq]

/-- The sequencer reads neither the level nor `PIN_LEVEL_RESET` (R101 to R105). -/
theorem State.withHidden_advanceSlot (v l : Bool) (s : State) :
    (s.withHidden v l).advanceSlot = s.advanceSlot.withHidden v l := by
  by_cases hc : s.cyc = 0
  · cases hsl : s.slot with
    | idle => simp [State.advanceSlot, State.withHidden, hc, hsl]
    | start | data => simp [State.advanceSlot, State.withHidden, State.enterSlot, hc, hsl]
    | stop => simp [State.advanceSlot, State.withHidden, State.endFrame, State.guardExit, hc, hsl]
  · simp [State.advanceSlot, State.withHidden, State.countDown, hc]

/-- A command changes the hidden level at most, wherever it was hidden before (R132). -/
theorem afterCommand_withHidden (v l : Bool) (i : Instr) (s : State) :
    ∃ l', afterCommand i (s.withHidden v l) = (afterCommand i s).withHidden v l' := by
  cases i with
  | tx b | txGuarded b | txAuto b => exact ⟨false, State.withHidden_startFrame v l b _ s⟩
  | init | pinInit => exact State.withHidden_pinOp v l .init s
  | pinHold => exact State.withHidden_pinOp v l .hold s
  | pinSetLow => exact State.withHidden_pinOp v l .setLow s
  | pinSetHigh => exact State.withHidden_pinOp v l .setHigh s
  | reserved0 | reserved6 | reserved7 | setGuard => exact ⟨l, rfl⟩

/-- A step from two states that differ in what is hidden leads to two such states (R45); reset hides its own level. -/
theorem State.withHidden_advance (v l : Bool) (s : State) :
    ∃ l', (s.withHidden v l).advance = s.advance.withHidden v l' := by
  cases hr : s.inReset with
  | true =>
    rw [State.advance_of_reset hr, State.advance_of_reset (s := s.withHidden v l) hr]
    exact ⟨v, rfl⟩
  | false =>
  cases hb : s.busy with
  | false =>
    rw [State.advance_of_idle hr hb, State.advance_of_idle (s := s.withHidden v l) hr hb, State.withHidden_input]
    split
    · exact afterCommand_withHidden v l _ (s.tick.hostIeWrite s.input)
    · exact ⟨l, rfl⟩
  | true =>
  cases hs : s.stalled with
  | true =>
    rw [State.advance_of_stall hr hs, State.advance_of_stall (s := s.withHidden v l) hr hs]
    exact ⟨l, rfl⟩
  | false =>
    rw [State.advance_of_progress hr hs hb, State.advance_of_progress (s := s.withHidden v l) hr hs hb]
    obtain ⟨l', h⟩ := s.tick.advanceSlot.withHidden_pinOp v l s.slotPinOp
    exact ⟨l', (congrArg (State.pinOp s.slotPinOp) (s.tick.withHidden_advanceSlot v l)).trans h⟩

/-- What is hidden at the start of a run stays hidden in it. -/
theorem State.withHidden_stateAt (v l : Bool) (s : State) (k : Nat) :
    ∃ l', (s.withHidden v l).stateAt k = (s.stateAt k).withHidden v l' := by
  induction k with
  | zero => exact ⟨l, rfl⟩
  | succ k ih =>
    obtain ⟨l₁, h⟩ := ih
    obtain ⟨l₂, h'⟩ := (s.stateAt k).withHidden_advance v l₁
    exact ⟨l₂, (congrArg State.advance h).trans h'⟩

/-- Settles O47: the direction is set at the edge that raises the level, and two blocks in reset that differ in
`PIN_LEVEL_RESET` differ, in every later cycle, in what the pad hides at most. -/
theorem padNeverShowsTheResetLevel : Obligations.PadNeverShowsTheResetLevel := by
  refine ⟨fun s t hr hd h => ⟨State.pad_of_undriven hd, (State.transition_of_step hr h).pad_of_undriven hd⟩, ?_⟩
  intro c v l n k
  obtain ⟨l', h⟩ := (State.fromReset c l n).withHidden_stateAt v v k
  have h0 : State.fromReset { c with pinLevelReset := v } l n = (State.fromReset c l n).withHidden v v := rfl
  rw [h0, h, State.withHidden_pad]

end Sys2Proof.Machine
end

section
/-! PROOFS of the family `20_memory`: the order of the `IE` writes against the pin writes on the guarded path (spec
20_memory.md R62, 70_reset_and_hazards.md R172). The frame's position is followed along the unstalled cycles. -/

namespace Sys2Proof.Machine

/-! The start of a frame -/

/-- Accepting a command of the TX class performs `StartFrame` by the path `GuardSelect` gives (R100, R120). -/
theorem State.StartsFrame.advance_eq {s : State} {op : TxOp} {b : Byte} (h : s.StartsFrame op b) :
    s.advance = (s.tick.hostIeWrite s.input).startFrame b (guardSelect op s) := by
  obtain ⟨hr, hb, hv, hi⟩ := State.accepts_eq_some.1 h
  rw [State.advance_of_idle hr hb, if_pos hv, hi]
  cases op <;> rfl

/-- `StartFrame` overwrites what the invariant speaks of, so that it sets the invariant up from any state (R100). -/
theorem State.inv_startFrame {s : State} (hn : 2 ≤ s.cfg.n) (b : Byte) (g : Bool) : (s.startFrame b g).Inv := by
  have h : ({ s.betweenFrames with pinLevel := true, cyc := 0 } : State).Inv :=
    ⟨hn, nofun, Nat.two_pow_pos _, nofun, nofun, fun _ _ => rfl⟩
  exact h.startFrame b g

/-- Every state of a frame and after it meets the invariant, whatever the state in which the frame was accepted. -/
theorem State.StartsFrame.inv_stateAt {s : State} {op : TxOp} {b : Byte} (h : s.StartsFrame op b) (hn : 2 ≤ s.cfg.n)
    (p : Nat) : (s.stateAt (p + 1)).Inv := by
  have h1 : (s.stateAt 1).Inv := by
    rw [State.stateAt, State.stateAt, h.advance_eq]
    exact State.inv_startFrame (s := s.tick.hostIeWrite s.input) hn b _
  rw [Nat.add_comm, State.stateAt_add]
  exact h1.stateAt p

/-! The position in a frame -/

/-- A slot entered in a frame has the code after its predecessor's (R75). -/
theorem Slot.code_next {sl : Slot} {txd : Byte} {l : Bool} (h : slotLevel sl.next txd = some l) :
    sl.next.code.toNat = sl.code.toNat + 1 := by
  cases sl with
  | idle | stop => cases h
  | start => rfl
  | data k => clear h; revert k; decide

/-- STOP has the highest code (R75). -/
theorem Slot.eq_stop_of_code {sl : Slot} (h : 10 ≤ sl.code.toNat) : sl = .stop := by
  cases sl with
  | idle | start => exact absurd h (by decide)
  | data k => revert k; decide
  | stop => rfl

/-- `p` unstalled cycles of the frame in flight are over. With this one and `CYC` more its slot is over (R101), and with
a slot of code `i` are over `i * N` unstalled cycles of the frame (R75). -/
structure State.AtPosition (s : State) (p : Nat) : Prop where
  busy : s.busy = true
  count : p + s.cyc + 1 = s.slot.code.toNat * s.cfg.n

/-- A frame has `10 * N` cycles (R108). -/
theorem State.AtPosition.lt {s : State} {p : Nat} (h : s.AtPosition p) : p < 10 * s.cfg.n := by
  have := h.count
  have := Nat.mul_le_mul_right s.cfg.n s.slot.code_le
  omega

/-- The stop slot is the last `N` cycles of a frame (R104). -/
theorem State.AtPosition.slot_eq_stop {s : State} {p : Nat} (h : s.AtPosition p) (hp : 9 * s.cfg.n ≤ p) :
    s.slot = .stop := by
  have hlt : 9 * s.cfg.n < s.slot.code.toNat * s.cfg.n := by
    have := h.count
    omega
  exact Slot.eq_stop_of_code (Nat.lt_of_mul_lt_mul_right hlt)

/-- A frame starts at position 0 (R100). -/
theorem State.atPosition_startFrame {s : State} (hn : 2 ≤ s.cfg.n) (b : Byte) (g : Bool) :
    (s.startFrame b g).AtPosition 0 where
  busy := rfl
  count := by
    have hc : Slot.start.code.toNat = 1 := rfl
    simp only [State.startFrame_eq, hc]
    omega

/-- An unstalled cycle of a frame moves on by one position, on the same path, or it is the last and ends the frame
(R101 to R105). -/
theorem State.AtPosition.of_transition {s t : State} {p : Nat} (h : s.AtPosition p) (hn : 2 ≤ s.cfg.n)
    (hs : s.stalled = false) (ht : s.Transition t) :
    (t.AtPosition (p + 1) ∧ t.guardAct = s.guardAct) ∨ (p + 1 = 10 * s.cfg.n ∧ t = s.tick.endFrame) := by
  obtain ⟨hb, hcount⟩ := h
  cases ht with
  | stall _ hs' _ => exact absurd (hs'.symm.trans hs) (by decide)
  | count _ _ hc ht =>
    subst ht
    have hcount' : p + 1 + (s.cyc - 1) + 1 = s.slot.code.toNat * s.cfg.n := by omega
    exact .inl ⟨⟨hb, hcount'⟩, rfl⟩
  | enter _ _ hc l hl ht =>
    subst ht
    have hcount' : p + 1 + (s.cfg.n - 1) + 1 = s.slot.next.code.toNat * s.cfg.n := by
      rw [Slot.code_next hl, Nat.succ_mul]
      omega
    exact .inl ⟨⟨State.busy_of_slotLevel hl, hcount'⟩, rfl⟩
  | finish _ hc hsl ht =>
    have h10 : Slot.stop.code.toNat = 10 := rfl
    rw [hsl, h10] at hcount
    exact .inr ⟨by omega, ht⟩
  | init hi _ _ _ | start hi _ _ _ _ | idle hi _ _ _ _ => exact absurd (hb.symm.trans hi) (by decide)

/-! The guarded frame -/

/-- A guarded frame is not stalled, for `IE = 0` in it (R127, R145). -/
theorem State.Inv.not_stalled_of_guarded {s : State} (h : s.Inv) (hg : s.guardAct = true) : s.stalled = false := by
  simp [State.stalled, State.stall, (h.guarded hg).2]

/-- A cycle of a guarded frame is not stalled: it moves on by one position, or it is the last and ends it (R127). -/
theorem State.AtPosition.advance_of_guarded {s : State} {p : Nat} (h : s.AtPosition p) (hi : s.Inv)
    (hg : s.guardAct = true) (hr : s.inReset = false) :
    (s.advance.AtPosition (p + 1) ∧ s.advance.guardAct = true) ∨
      (p + 1 = 10 * s.cfg.n ∧ s.advance = s.tick.endFrame) := by
  have ht := State.transition_of_step hr (step_eq_advance s)
  rw [← hg]
  exact h.of_transition hi.period (hi.not_stalled_of_guarded hg) ht

/-- A frame that started on the guarded path stays on it and moves on by one position every cycle (R127). -/
theorem State.StartsFrame.guarded_atPosition {s : State} {op : TxOp} {b : Byte} (h : s.StartsFrame op b)
    (hn : 2 ≤ s.cfg.n) (hg : guardSelect op s = true) {p : Nat} (hp : p < 10 * s.cfg.n) (hr : s.ResetFree (p + 1)) :
    (s.stateAt (p + 1)).AtPosition p ∧ (s.stateAt (p + 1)).guardAct = true := by
  induction p with
  | zero =>
    rw [State.stateAt, State.stateAt, h.advance_eq, hg]
    exact ⟨State.atPosition_startFrame (s := s.tick.hostIeWrite s.input) hn b true, rfl⟩
  | succ p ih =>
    obtain ⟨hpos, hga⟩ := ih (by omega) fun j hj => hr j (by omega)
    rcases hpos.advance_of_guarded (h.inv_stateAt hn p) hga (hr (p + 1) (by omega)) with hstay | ⟨hlast, _⟩
    · exact hstay
    · rw [State.stateAt_cfg] at hlast
      omega

/-- The last cycle of a guarded frame ends it, with the guard exit (R105, R125). -/
theorem State.StartsFrame.guarded_end {s : State} {op : TxOp} {b : Byte} (h : s.StartsFrame op b) (hn : 2 ≤ s.cfg.n)
    (hg : guardSelect op s = true) (hr : s.ResetFree (10 * s.cfg.n + 1)) :
    (s.stateAt (10 * s.cfg.n + 1)).slot = .idle ∧ (s.stateAt (10 * s.cfg.n + 1)).ie = true := by
  obtain ⟨p, hp⟩ : ∃ p, 10 * s.cfg.n = p + 1 := Nat.exists_eq_add_of_le' (by omega)
  rw [hp] at hr ⊢
  obtain ⟨hpos, hga⟩ := h.guarded_atPosition hn hg (p := p) (by omega) fun j hj => hr j (by omega)
  rcases hpos.advance_of_guarded (h.inv_stateAt hn p) hga (hr (p + 1) (by omega)) with ⟨hstay, _⟩ | ⟨_, hend⟩
  · have hlt : p + 1 < 10 * (s.stateAt (p + 2)).cfg.n := hstay.lt
    rw [State.stateAt_cfg] at hlt
    omega
  · rw [State.stateAt, hend]
    simp [hga]

/-- Settles O44: guard entry is part of `StartFrame`; in the frame the position counts every cycle, and the invariant
gives `IE = 0` and the stop slot's level; guard exit is part of the frame's end. -/
theorem guardedFrameEndsWithInterruptsEnabled : Obligations.GuardedFrameEndsWithInterruptsEnabled := by
  intro s op b hn h hg
  refine ⟨?entry, fun hr => ⟨fun c hc hc' => ?busy, ?stop, ?exit⟩⟩
  case entry =>
    rw [State.stateAt, State.stateAt, h.advance_eq, hg]
    exact ⟨rfl, rfl, rfl⟩
  case busy =>
    obtain ⟨p, rfl⟩ := Nat.exists_eq_add_of_le' hc
    obtain ⟨_, hga⟩ := h.guarded_atPosition hn hg (p := p) hc' fun j hj => hr j (by omega)
    exact (h.inv_stateAt hn p).guarded hga
  case stop =>
    obtain ⟨hpos, _⟩ := h.guarded_atPosition hn hg (p := 9 * s.cfg.n) (by omega) fun j hj => hr j (by omega)
    have hsl := hpos.slot_eq_stop (by simp)
    exact ⟨hsl, (h.inv_stateAt hn _).pinLevel_of_stop hsl⟩
  case exit => exact (h.guarded_end hn hg hr).symm

end Sys2Proof.Machine
end

section
/-! PROOFS of the family `30_encoding`: the opcode field of a command word, the reserved opcodes, the slot codes and the
bits of a frame (spec 30_encoding.md R70 to R78). -/

namespace Sys2Proof

/-! The fields of a command word (R70, R81) -/

@[simp] theorem commandOp_commandWord (op : BitVec 3) (x : Byte) : commandOp (commandWord op x) = op :=
  BitVec.extractLsb'_append_eq_left

@[simp] theorem commandOperand_commandWord (op : BitVec 3) (x : Byte) : commandOperand (commandWord op x) = x :=
  BitVec.extractLsb'_append_eq_right

namespace Machine

/-! The reserved opcodes (R73) -/

/-- A command with a reserved opcode changes nothing (R73). -/
theorem afterCommand_of_reserved {i : Instr} (h : i.reserved = true) (s : State) : afterCommand i s = s := by
  cases i with
  | reserved0 | reserved6 | reserved7 => rfl
  | init | tx | txGuarded | txAuto | setGuard | pinHold | pinSetLow | pinSetHigh | pinInit => cases h

/-- The cycle that accepts a command runs it after the host's write of `IE` (R132). -/
theorem State.advance_of_accepts {s : State} {i : Instr} (h : s.accepts = some i) :
    s.advance = afterCommand i (s.tick.hostIeWrite s.input) := by
  obtain ⟨hr, hb, hv, rfl⟩ := State.accepts_eq_some.1 h
  rw [State.advance_of_idle hr hb, if_pos hv]

/-- Settles O5: a reserved command is the identity in `exec`, so that the cycle accepting it is an idle one, with the
host's write of `IE` alone; and `op` alone selects the row. -/
theorem reservedOpcodesChangeNothing : Obligations.ReservedOpcodesChangeNothing := by
  refine ⟨fun _ _ => ⟨rfl, rfl, rfl⟩, fun s i ha hi => ?accepted, fun x => ?decoded, by decide⟩
  case accepted =>
    obtain ⟨_, hb, _⟩ := State.accepts_eq_some.1 ha
    refine ⟨s.advance, step_eq_advance s, ?_⟩
    rw [State.advance_of_accepts ha, afterCommand_of_reserved hi, State.hostIeWrite_of_idle (s := s.tick) hb]
    exact ⟨rfl, hb⟩
  case decoded => simp [decodeCommand]

/-! The slots (R75) -/

/-- Every slot of a frame but STOP is followed by a slot with a level of its own (R21, R75). -/
theorem Slot.exists_slotLevel_next {sl : Slot} (hi : sl ≠ .idle) (hs : sl ≠ .stop) (txd : Byte) :
    ∃ l, slotLevel sl.next txd = some l := by
  cases sl with
  | idle => exact absurd rfl hi
  | start => exact ⟨_, rfl⟩
  | data k =>
    by_cases hk : k.val + 1 < 8
    · exact ⟨_, by rw [Slot.next, dif_pos hk, slotLevel]⟩
    · exact ⟨_, by rw [Slot.next, dif_neg hk, slotLevel]⟩
  | stop => exact absurd rfl hs

/-- Settles O58: the codes and the levels by the table of R75, the order by the successor of each slot. -/
theorem slotCodesAreInVisitingOrder : Obligations.SlotCodesAreInVisitingOrder := by
  refine ⟨⟨rfl, rfl, by decide, rfl⟩, fun sl hi hs => ?next, rfl, fun _ => ⟨rfl, fun _ => rfl, rfl⟩⟩
  case next =>
    obtain ⟨_, hl⟩ := Slot.exists_slotLevel_next hi hs 0
    exact Slot.code_next hl

/-! The frame word (R78) -/

/-- `{1, b, 0}` is stop bit and operand shifted into place (R78). -/
theorem frameWord_eq_or (b : Byte) : frameWord b = 0x200 ||| (b.setWidth 10 <<< 1) := by
  calc frameWord b
    _ = ((1#1 ++ b) ++ 0#1).setWidth 10 := (BitVec.setWidth_eq _).symm
    _ = (1#1).setWidth 10 <<< (8 + 1) ||| b.setWidth 10 <<< 1 ||| (0#1).setWidth 10 :=
      BitVec.setWidth_append_append_eq_shiftLeft_setWidth_or
    _ = 0x200 ||| b.setWidth 10 <<< 1 := by simp

/-- Bit `i` of the frame word is the bit of slot `i`: start, data or stop (R78). -/
theorem frameWord_getLsbD (b : Byte) {i : Nat} (hi : i < 10) : (frameWord b).getLsbD i = frameBit b i := by
  rw [frameWord, BitVec.getLsbD_append, BitVec.getLsbD_append]
  obtain rfl | ⟨h1, h8⟩ | rfl : i = 0 ∨ (1 ≤ i ∧ i ≤ 8) ∨ i = 9 := by omega
  · rfl
  · rw [if_neg (by omega), if_pos (by omega), frameBit, if_neg (by omega), if_pos h8, dataBit]
  · rfl

/-- Slot `1 + k` carries data bit `k` (R78). -/
theorem frameBit_data (b : Byte) {k : Nat} (hk : k < 8) : frameBit b (1 + k) = b.getLsbD k := by
  rw [frameBit, if_neg (by omega), if_pos (by omega), Nat.add_sub_cancel_left, dataBit]

/-- Settles O59: the frame word is the concatenation of stop bit, operand and start bit. -/
theorem frameBitsAreTheFrameWord : Obligations.FrameBitsAreTheFrameWord := fun b =>
  ⟨frameWord_eq_or b, fun _ hi => frameWord_getLsbD b hi, rfl, fun _ hk => frameBit_data b hk, rfl⟩

end Machine
end Sys2Proof
end

section
/-! PROOFS of the family `40_pin_controller`: the pin operation issued in each kind of cycle, INIT, and the four pin
operations (spec 40_pin_controller.md R90 to R94, R98). -/

namespace Sys2Proof.Machine

/-! Which operation a slot entry and a command issue (R94, R100 to R104) -/

/-- The entries that drive LOW: START, and a data slot whose bit is 0 (R91). -/
theorem entryPinOp_eq_setLow {sl : Slot} {txd : Byte} : entryPinOp sl txd = .setLow ↔
    sl = .start ∨ ∃ k : Fin 8, sl = .data k ∧ dataBit txd k.val = false := by
  cases sl with
  | idle | start | stop => simp [entryPinOp]
  | data k => cases hb : dataBit txd k.val <;> simp [entryPinOp, levelPinOp, hb]

/-- The entries that drive HIGH: STOP, and a data slot whose bit is 1 (R92). -/
theorem entryPinOp_eq_setHigh {sl : Slot} {txd : Byte} : entryPinOp sl txd = .setHigh ↔
    sl = .stop ∨ ∃ k : Fin 8, sl = .data k ∧ dataBit txd k.val = true := by
  cases sl with
  | idle | start | stop => simp [entryPinOp]
  | data k => cases hb : dataBit txd k.val <;> simp [entryPinOp, levelPinOp, hb]

/-- No slot entry issues PIN_INIT (R98). -/
theorem entryPinOp_ne_init (sl : Slot) (txd : Byte) : entryPinOp sl txd ≠ .init := by
  cases sl with
  | idle | start | stop => exact nofun
  | data k => cases hb : dataBit txd k.val <;> simp [entryPinOp, levelPinOp, hb]

/-- A command of the port issues PIN_INIT if it is INIT, PIN_SET_LOW if it starts a frame, and else PIN_HOLD (R132). -/
theorem commandPinOp_cases {i : Instr} (h : i.format = .h) :
    (∃ x, i = .init x ∧ commandPinOp i = .init) ∨
    (∃ op b, i = TxOp.toInstr op b ∧ commandPinOp i = .setLow) ∨
    commandPinOp i = .hold := by
  cases i with
  | init x => exact .inl ⟨x, rfl, rfl⟩
  | tx b => exact .inr (.inl ⟨.tx, b, rfl, rfl⟩)
  | txGuarded b => exact .inr (.inl ⟨.txGuarded, b, rfl, rfl⟩)
  | txAuto b => exact .inr (.inl ⟨.txAuto, b, rfl, rfl⟩)
  | setGuard | reserved0 | reserved6 | reserved7 => exact .inr (.inr rfl)
  | pinHold | pinSetLow | pinSetHigh | pinInit => cases h

/-! The operation issued in each kind of cycle (R41, R90) -/

/-- A reset cycle issues PIN_HOLD (log 20). -/
theorem State.issuedPinOp_of_reset {s : State} (hr : s.inReset = true) : s.issuedPinOp s.input = .hold :=
  if_pos hr

/-- A stalled cycle issues PIN_HOLD (R90, R146). -/
theorem State.issuedPinOp_of_stall {s : State} (hs : s.stalled = true) : s.issuedPinOp s.input = .hold := by
  unfold State.stalled at hs
  simp [State.issuedPinOp, hs]

/-- A busy cycle that is not stalled issues the slot rule's operation (R101 to R105). -/
theorem State.issuedPinOp_of_progress {s : State} (hr : s.inReset = false) (hs : s.stalled = false)
    (hb : s.busy = true) : s.issuedPinOp s.input = s.slotPinOp := by
  unfold State.inReset at hr
  unfold State.stalled at hs
  simp [State.issuedPinOp, hr, hs, hb]

/-- An idle cycle issues the operation of the command presented, if any (R132). -/
theorem State.issuedPinOp_of_idle {s : State} (hr : s.inReset = false) (hb : s.busy = false) :
    s.issuedPinOp s.input = if s.input.cmdValid then commandPinOp (decodeCommand s.input.cmd) else .hold := by
  unfold State.inReset at hr
  simp [State.issuedPinOp, State.stall, hr, hb]

/-- The slot rules issue PIN_HOLD, or at the last cycle of a slot other than STOP the entry operation of the next slot
(R101 to R105). -/
theorem State.slotPinOp_cases (s : State) :
    s.slotPinOp = .hold ∨ (s.cyc = 0 ∧ s.slot ≠ .stop ∧ s.slotPinOp = entryPinOp s.slot.next s.txd) := by
  by_cases hc : s.cyc = 0
  · by_cases hsl : s.slot = .stop
    · exact .inl (by simp [State.slotPinOp, hsl, Slot.next, entryPinOp])
    · exact .inr ⟨hc, hsl, if_neg (not_not_intro hc)⟩
  · exact .inl (if_pos hc)

/-- One writer per cycle (R98): the operation issued is PIN_HOLD, or PIN_INIT by an accepted INIT, or PIN_SET_LOW by
the start of a frame, or the entry operation of the slot that follows one in its last cycle. -/
theorem State.issuedPinOp_cases (s : State) :
    s.issuedPinOp s.input = .hold ∨
    ((∃ x, s.accepts = some (.init x)) ∧ s.issuedPinOp s.input = .init) ∨
    ((∃ op b, s.StartsFrame op b) ∧ s.issuedPinOp s.input = .setLow) ∨
    (s.inReset = false ∧ s.stalled = false ∧ s.busy = true ∧ s.cyc = 0 ∧ s.slot ≠ .stop ∧
      s.issuedPinOp s.input = entryPinOp s.slot.next s.txd) := by
  cases hr : s.inReset with
  | true => exact .inl (State.issuedPinOp_of_reset hr)
  | false =>
  cases hb : s.busy with
  | true =>
    cases hs : s.stalled with
    | true => exact .inl (State.issuedPinOp_of_stall hs)
    | false =>
      rw [State.issuedPinOp_of_progress hr hs hb]
      rcases s.slotPinOp_cases with hp | ⟨hc, hsl, hp⟩
      · exact .inl hp
      · exact .inr (.inr (.inr ⟨rfl, rfl, rfl, hc, hsl, hp⟩))
  | false =>
    rw [State.issuedPinOp_of_idle hr hb]
    cases hv : s.input.cmdValid with
    | false => exact .inl rfl
    | true =>
      have ha : s.accepts = some (decodeCommand s.input.cmd) := State.accepts_eq_some.2 ⟨hr, hb, hv, rfl⟩
      rcases commandPinOp_cases (decodeCommand_format s.input.cmd) with ⟨x, hi, hp⟩ | ⟨op, b, hi, hp⟩ | hp
      · exact .inr (.inl ⟨⟨x, ha.trans (congrArg some hi)⟩, hp⟩)
      · exact .inr (.inr (.inl ⟨⟨op, b, ha.trans (congrArg some hi)⟩, hp⟩))
      · exact .inl hp

/-! INIT (R94) -/

/-- Settles O6: INIT runs the shared PIN_INIT alone, so that the cycle accepting it is an idle one in which the pin is
raised and driven; starting a frame leaves `PIN_DIR` as it is. -/
theorem initRaisesAndDrivesThePin : Obligations.InitRaisesAndDrivesThePin := by
  refine ⟨fun _ _ => rfl, fun s x ha => ?accepted, fun x y s t h => ?twice, fun s => State.accepts_of_busy,
    fun s op b ha hd => ?undriven, by decide, fun x => by simp [decodeCommand]⟩
  case accepted =>
    obtain ⟨_, hb, _⟩ := State.accepts_eq_some.1 ha
    refine ⟨s.advance, step_eq_advance s, ?_⟩
    rw [State.advance_of_accepts ha, State.hostIeWrite_of_idle (s := s.tick) hb]
    exact ⟨rfl, rfl, congrArg not hb⟩
  case twice => cases h; rfl
  case undriven =>
    refine ⟨s.advance, step_eq_advance s, ?_⟩
    rw [ha.advance_eq]
    exact ⟨rfl, State.pad_of_undriven (by simp [hd])⟩

/-! PIN_HOLD (R90) -/

/-- Settles O12: every operation other than PIN_HOLD has one of the three causes that the statement excludes. -/
theorem pinHoldKeepsThePin : Obligations.PinHoldKeepsThePin := by
  refine ⟨fun _ => rfl, fun s => State.issuedPinOp_of_stall, fun s hi hf hn => ?hold, rfl⟩
  case hold =>
    rcases s.issuedPinOp_cases with hp | ⟨⟨x, ha⟩, _⟩ | ⟨⟨op, b, ha⟩, _⟩ | ⟨_, _, hb, hc, hsl, _⟩
    · exact hp
    · exact absurd ha (hi x)
    · exact absurd ha (hf op b)
    · exact absurd ⟨hb, hc, hsl⟩ hn

/-! PIN_SET_LOW and PIN_SET_HIGH (R91, R92) -/

/-- The slot that follows a slot of a frame is another one (R21). -/
theorem Slot.next_ne_self {sl : Slot} (h : sl ≠ .idle) : sl.next ≠ sl := by
  cases sl with
  | idle => exact absurd rfl h
  | start | stop => exact nofun
  | data k => clear h; revert k; decide

/-- At the last cycle of a slot other than STOP the next slot is entered; the byte stays (R102 to R104). -/
theorem State.advance_of_slotExit {s : State} (hr : s.inReset = false) (hs : s.stalled = false) (hb : s.busy = true)
    (hc : s.cyc = 0) (hsl : s.slot ≠ .stop) : s.advance.slot = s.slot.next ∧ s.advance.txd = s.txd := by
  rw [State.advance_of_progress hr hs hb]
  rcases State.slotRule_outcome (s := s.tick) hb with ⟨hc', _⟩ | ⟨_, l, _, he⟩ | ⟨_, hsl', _⟩
  · exact absurd hc hc'
  · rw [← State.tick_slotPinOp, he]; exact ⟨rfl, rfl⟩
  · exact absurd hsl' hsl

/-- A cycle that writes the level alone enters a slot that the block was not in, and its operation is that slot's entry
operation (R98). -/
theorem State.slotEntry_of_issuedPinOp {s : State} (hh : s.issuedPinOp s.input ≠ .hold)
    (hi : s.issuedPinOp s.input ≠ .init) :
    s.advance.slot ≠ s.slot ∧ entryPinOp s.advance.slot s.advance.txd = s.issuedPinOp s.input := by
  rcases s.issuedPinOp_cases with hp | ⟨_, hp⟩ | ⟨⟨op, b, ha⟩, hp⟩ | ⟨hr, hs, hb, hc, hsl, hp⟩
  · exact absurd hp hh
  · exact absurd hp hi
  · obtain ⟨_, hb, _⟩ := State.accepts_eq_some.1 ha
    rw [hp, ha.advance_eq, (State.not_busy_iff s).1 hb]
    exact ⟨nofun, rfl⟩
  · obtain ⟨hn, ht⟩ := State.advance_of_slotExit hr hs hb hc hsl
    rw [hp, hn, ht]
    exact ⟨Slot.next_ne_self ((State.busy_iff s).1 hb), rfl⟩

/-- Settles O13: both operations write the level alone, and whichever is issued is the entry operation of the slot that
the cycle enters. -/
theorem pinSetWritesTheLevelAlone : Obligations.PinSetWritesTheLevelAlone := by
  refine ⟨fun _ => ⟨rfl, rfl⟩, fun s t hd h => ?undriven, fun s t _ h hp => ?low, fun s t _ h hp => ?high, rfl, rfl⟩
  case undriven => rcases h with h | h <;> cases h <;> exact State.pad_of_undriven hd
  case low =>
    obtain ⟨hne, he⟩ := State.slotEntry_of_issuedPinOp (s := s) (by simp [hp]) (by simp [hp])
    rw [eq_advance_of_step h]
    exact ⟨hne, entryPinOp_eq_setLow.1 (he.trans hp)⟩
  case high =>
    obtain ⟨hne, he⟩ := State.slotEntry_of_issuedPinOp (s := s) (by simp [hp]) (by simp [hp])
    rw [eq_advance_of_step h]
    exact ⟨hne, entryPinOp_eq_setHigh.1 (he.trans hp)⟩

/-! PIN_INIT (R93) -/

/-- Settles O14: PIN_INIT overwrites both pin registers, and of the causes of an operation only an accepted INIT issues
it. -/
theorem pinInitDrivesHighAtOneEdge : Obligations.PinInitDrivesHighAtOneEdge := by
  refine ⟨fun _ => ⟨_, rfl, rfl, rfl, rfl⟩, fun s hp => ?issued, rfl⟩
  case issued =>
    rcases s.issuedPinOp_cases with h | ⟨⟨x, ha⟩, _⟩ | ⟨_, h⟩ | ⟨_, _, _, _, _, h⟩
    · cases h.symm.trans hp
    · obtain ⟨_, hb, _⟩ := State.accepts_eq_some.1 ha
      exact ⟨(State.not_busy_iff s).1 hb, x, ha⟩
    · cases h.symm.trans hp
    · exact absurd (h.symm.trans hp) (entryPinOp_ne_init _ _)

end Sys2Proof.Machine
end

section
/-! PROOFS of the family `41_bit_timing_fsm`: the slot rules, and the run of a frame by its unstalled and its stalled
cycles (spec 41_bit_timing_fsm.md R100 to R116). -/

namespace Sys2Proof.Machine

/-! TX and the start edge (R100, R110) -/

/-- Settles O7: TX runs `StartFrame` by the path of `FORCE_GUARD`, and the cycle that accepts it does the same after the
host's write of `IE`. -/
theorem txStartsAFrameByTheParameter : Obligations.TxStartsAFrameByTheParameter := by
  refine ⟨fun _ _ => rfl, fun b s ha => ?accepted, fun _ => State.accepts_of_busy, fun b => by simp [decodeCommand]⟩
  case accepted =>
    have hf : s.StartsFrame .tx b := ha
    refine ⟨s.advance, step_eq_advance s, ?_⟩
    rw [hf.advance_eq]
    exact ⟨rfl, rfl, rfl, rfl, rfl, rfl, fun hg => if_pos hg⟩

/-- Settles O48: `StartFrame` drives LOW at the edge of acceptance; before it the invariant has a driven idle line
HIGH. -/
theorem startEdgeEndsTheAcceptanceCycle : Obligations.StartEdgeEndsTheAcceptanceCycle := by
  intro s t op b hn hf hst
  obtain ⟨_, hb, _⟩ := State.accepts_eq_some.1 hf
  rw [eq_advance_of_step hst, hf.advance_eq]
  refine ⟨rfl, rfl, hn, fun hinv hd => ⟨?before, ?after⟩⟩
  case before =>
    have hl := hinv.idleHigh ((State.not_busy_iff s).1 hb) hd
    simp [State.pad, hd, hl]
  case after => simp [State.pad, hd]

/-! The slot rules as whole next states (R101 to R105) -/

/-- Inside a slot the cycle counts down (R101). -/
theorem State.advance_of_count {s : State} (hr : s.inReset = false) (hs : s.stalled = false) (hb : s.busy = true)
    (hc : s.cyc ≠ 0) : s.advance = s.tick.countDown := by
  rw [State.advance_of_progress hr hs hb, ← State.tick_slotPinOp]
  rcases State.slotRule_outcome (s := s.tick) hb with ⟨_, he⟩ | ⟨hc', _⟩ | ⟨hc', _⟩
  · exact he
  · exact absurd hc' hc
  · exact absurd hc' hc

/-- At the last cycle of a slot with a successor in the frame, that slot is entered at its level (R102 to R104). -/
theorem State.advance_of_slotEntry {s : State} (hr : s.inReset = false) (hs : s.stalled = false) (hb : s.busy = true)
    (hc : s.cyc = 0) {l : Bool} (hl : slotLevel s.slot.next s.txd = some l) :
    s.advance = { s.tick.enterSlot s.slot.next with pinLevel := l } := by
  rw [State.advance_of_progress hr hs hb, ← State.tick_slotPinOp]
  rcases State.slotRule_outcome (s := s.tick) hb with ⟨hc', _⟩ | ⟨_, l', hl', he⟩ | ⟨_, hsl, _⟩
  · exact absurd hc hc'
  · rw [he, Option.some.inj (hl.symm.trans hl')]; rfl
  · rw [show s.slot = .stop from hsl] at hl; cases hl

/-- At the last cycle of the stop slot the frame ends (R105). -/
theorem State.advance_of_stopExit {s : State} (hr : s.inReset = false) (hs : s.stalled = false) (hsl : s.slot = .stop)
    (hc : s.cyc = 0) : s.advance = s.tick.endFrame := by
  have hb : s.busy = true := (State.busy_iff s).2 (by simp [hsl])
  rw [State.advance_of_progress hr hs hb, ← State.tick_slotPinOp]
  rcases State.slotRule_outcome (s := s.tick) hb with ⟨hc', _⟩ | ⟨_, l, hl, _⟩ | ⟨_, _, he⟩
  · exact absurd hc hc'
  · rw [show s.tick.slot = .stop from hsl] at hl; cases hl
  · exact he

/-- At the last cycle of a slot the entry operation of its successor is issued (R102 to R105). -/
theorem State.issuedPinOp_of_slotExit {s : State} (hr : s.inReset = false) (hs : s.stalled = false)
    (hb : s.busy = true) (hc : s.cyc = 0) : s.issuedPinOp s.input = entryPinOp s.slot.next s.txd :=
  (State.issuedPinOp_of_progress hr hs hb).trans (if_neg (not_not_intro hc))

/-- Settles O28: the count-down rule, which issues PIN_HOLD. -/
theorem countDownInsideASlot : Obligations.CountDownInsideASlot := by
  intro s hr hb hs hc
  rw [step_eq_advance, State.advance_of_count hr hs hb hc, State.issuedPinOp_of_progress hr hs hb]
  exact ⟨rfl, if_pos hc⟩

/-- Settles O30: the end of the frame issues PIN_HOLD, the entry operation of IDLE. -/
theorem stopExitEndsTheFrame : Obligations.StopExitEndsTheFrame := by
  intro s hr hs hsl hc
  have hb : s.busy = true := (State.busy_iff s).2 (by simp [hsl])
  rw [step_eq_advance, State.advance_of_stopExit hr hs hsl hc, State.issuedPinOp_of_slotExit hr hs hb hc, hsl]
  exact ⟨rfl, rfl⟩

/-- Settles O29: the successor of each slot, with its level and its entry operation, in the one rule of slot entry. -/
theorem slotExitEntersTheNextSlot : Obligations.SlotExitEntersTheNextSlot := by
  intro s hr hs hc
  have entry : ∀ {sl l}, s.slot ≠ .idle → s.slot.next = sl → slotLevel sl s.txd = some l →
      step s = .next { s.tick.enterSlot sl with pinLevel := l } ∧ s.issuedPinOp s.input = entryPinOp sl s.txd := by
    rintro sl l hi rfl hl
    have hb := (State.busy_iff s).2 hi
    exact ⟨(step_eq_advance s).trans (congrArg _ (State.advance_of_slotEntry hr hs hb hc hl)),
      State.issuedPinOp_of_slotExit hr hs hb hc⟩
  refine ⟨fun hsl => ?start, fun k hk hsl => ?data, fun hsl => ?stop⟩
  case start => exact entry (by simp [hsl]) (by rw [hsl]; rfl) rfl
  case data => exact entry (by simp [hsl]) (by rw [hsl, Slot.next, dif_pos hk]) rfl
  case stop => exact entry (by simp [hsl]) (by rw [hsl]; rfl) rfl

/-- While idle `SLOT` moves to START where a frame starts, and not at all otherwise (R106). -/
theorem State.Transition.slot_of_idle {s t : State} (h : s.Transition t) (hi : s.slot = .idle) :
    ((∃ op b, s.StartsFrame op b) → t.slot = .start) ∧ ((∀ op b, ¬ s.StartsFrame op b) → t.slot = .idle) := by
  cases h with
  | stall hb _ _ | count hb _ _ _ | enter hb _ _ _ _ _ => exact absurd hi ((State.busy_iff s).1 hb)
  | finish _ _ hsl _ => cases hi.symm.trans hsl
  | init _ x ha ht => exact ⟨fun ⟨_, _, hf⟩ => absurd ha (hf.accepts_ne_init x), fun _ => by simp [ht, hi]⟩
  | start _ op b hf ht => exact ⟨fun _ => by simp [ht], fun hn => absurd hf (hn op b)⟩
  | idle _ _ hnf v ht => exact ⟨fun ⟨op, b, hf⟩ => absurd hf (hnf op b), fun _ => by simp [ht, hi]⟩

/-- In a frame `SLOT` stays, or at the last cycle of a slot that is not stalled moves to the successor (R106). -/
theorem State.Transition.slot_of_busy {s t : State} (h : s.Transition t) (hb : s.busy = true) :
    (s.stalled = true ∨ s.cyc ≠ 0 → t.slot = s.slot) ∧ (s.stalled = false → s.cyc = 0 → t.slot = s.slot.next) := by
  cases h with
  | stall _ hs ht => exact ⟨fun _ => by simp [ht], fun hs' => by cases hs.symm.trans hs'⟩
  | count _ _ hc ht => exact ⟨fun _ => by simp [ht], fun _ hc' => absurd hc' hc⟩
  | enter _ hs hc l _ ht => exact ⟨by simp [hs, hc], fun _ _ => by simp [ht]⟩
  | finish hs hc hsl ht => exact ⟨by simp [hs, hc], fun _ _ => by simp [ht, hsl, Slot.next]⟩
  | init hi _ _ _ | start hi _ _ _ _ | idle hi _ _ _ _ => cases hb.symm.trans hi

/-- Settles O31: in each kind of cycle outside reset, the slot afterwards. -/
theorem slotHasNoOtherTransitions : Obligations.SlotHasNoOtherTransitions := by
  intro s t hr hst
  have ht := State.transition_of_step hr hst
  exact ⟨ht.slot_of_idle, fun hi => ht.slot_of_busy ((State.busy_iff s).2 hi)⟩

/-! A frame before INIT (R114) -/

/-- The same block with its pin an output. -/
def State.driven (s : State) : State := { s with pinDir := true }

/-- Nothing but the pad reads `PIN_DIR`, and no pin operation clears it (R90 to R93). -/
theorem State.driven_pinOp (p : PinOp) (s : State) : s.driven.pinOp p = (s.pinOp p).driven := by
  cases p <;> rfl

/-- The sequencer does not read the direction (R101 to R105). -/
theorem State.driven_advanceSlot (s : State) : s.driven.advanceSlot = s.advanceSlot.driven := by
  by_cases hc : s.cyc = 0
  · cases hsl : s.slot with
    | idle | start | data | stop =>
      simp [State.advanceSlot, State.driven, State.enterSlot, State.endFrame, State.guardExit, hc, hsl]
  · simp [State.advanceSlot, State.driven, State.countDown, hc]

/-- No command reads the direction (R132). -/
theorem afterCommand_driven (i : Instr) (s : State) : afterCommand i s.driven = (afterCommand i s).driven := by
  cases i <;> rfl

/-- A cycle outside reset does the same with the pin an output (R28). -/
theorem State.driven_advance {s : State} (hr : s.inReset = false) : s.driven.advance = s.advance.driven := by
  cases hb : s.busy with
  | false =>
    rw [State.advance_of_idle hr hb, State.advance_of_idle (s := s.driven) hr hb, apply_ite State.driven]
    exact if_congr Iff.rfl (afterCommand_driven _ (s.tick.hostIeWrite s.input)) rfl
  | true =>
  cases hs : s.stalled with
  | true =>
    rw [State.advance_of_stall hr hs, State.advance_of_stall (s := s.driven) hr hs]
    rfl
  | false =>
    rw [State.advance_of_progress hr hs hb, State.advance_of_progress (s := s.driven) hr hs hb]
    calc (s.tick.driven.advanceSlot).pinOp s.slotPinOp
      _ = (s.tick.advanceSlot.driven).pinOp s.slotPinOp := by rw [State.driven_advanceSlot]
      _ = (s.tick.advanceSlot.pinOp s.slotPinOp).driven := State.driven_pinOp _ _

/-- Without a reset a run does the same with the pin an output (R114). -/
theorem State.driven_stateAt {s : State} {k : Nat} (hr : s.ResetFree k) :
    s.driven.stateAt k = (s.stateAt k).driven := by
  induction k with
  | zero => rfl
  | succ k ih =>
    rw [State.stateAt, ih fun j hj => hr j (hj.trans k.lt_succ_self), State.driven_advance (hr k k.lt_succ_self)]
    rfl

/-- Settles O52: no cycle of the frame accepts an INIT, which alone could drive the pin, and nothing but the pad reads the
direction. -/
theorem frameBeforeInitIsNotDriven : Obligations.FrameBeforeInitIsNotDriven := by
  intro s op b k hf hd hr hbusy
  refine ⟨State.pad_of_undriven (Bool.eq_false_iff.2 fun hk => ?_), State.driven_stateAt hr⟩
  rcases (State.pinDir_stateAt_iff hr).1 hk with h | ⟨j, hj, x, ha⟩
  · cases h.symm.trans hd
  · cases j with
    | zero => exact hf.accepts_ne_init x ha
    | succ j => cases (State.accepts_of_busy (hbusy (j + 1) (by omega) hj)).symm.trans ha

/-! Timing and data (R107) -/

/-- The same inputs differ in no byte. -/
theorem SameButByte.refl (i : Inputs) : SameButByte i i := ⟨rfl, rfl, rfl, rfl, rfl, .inl rfl⟩

namespace SameTiming

variable {s t : State}

/-- The inputs of the two blocks differ in a byte at most, past the schedules' end too, which they reach together. -/
theorem input (h : SameTiming s t) : SameButByte s.input t.input := by
  have hin := h.inputs
  unfold State.input State.inputAt
  rw [h.cycle]
  generalize s.inputs = l, t.inputs = m at hin ⊢
  cases hin with
  | nil => exact SameButByte.refl _
  | cons hi _ => exact hi

theorem busy (h : SameTiming s t) : s.busy = t.busy := State.busy_congr h.slot

theorem stall (h : SameTiming s t) {i j : Inputs} (hi : SameButByte i j) : s.stall i = t.stall j := by
  obtain ⟨_, _, hirq, _⟩ := hi
  simp only [State.stall, h.busy, hirq, h.ie]

theorem tick (h : SameTiming s t) : SameTiming s.tick t.tick where
  slot := h.slot
  cyc := h.cyc
  guardAct := h.guardAct
  guardEn := h.guardEn
  pinDir := h.pinDir
  ie := h.ie
  cfg := h.cfg
  cycle := congrArg (· + 1) h.cycle
  inputs := by
    have hin := h.inputs
    rw [State.tick_inputs, State.tick_inputs]
    generalize s.inputs = l, t.inputs = m at hin ⊢
    cases hin with
    | nil => exact .nil
    | cons _ hin => exact hin

/-- Reset sets both blocks to the same registers (R161). -/
theorem toReset (h : SameTiming s t) : SameTiming s.toReset t.toReset where
  slot := rfl
  cyc := by simp [h.cfg]
  guardAct := rfl
  guardEn := rfl
  pinDir := rfl
  ie := by simp [h.cfg]
  cfg := h.cfg
  cycle := h.cycle
  inputs := h.inputs

theorem hostIeWrite (h : SameTiming s t) {i j : Inputs} (hi : SameButByte i j) :
    SameTiming (s.hostIeWrite i) (t.hostIeWrite j) := by
  have hst := h.stall hi
  obtain ⟨_, _, _, hwe, hd, _⟩ := hi
  have hw : s.ieWriteHonoured i = t.ieWriteHonoured j := by simp only [State.ieWriteHonoured, hwe, hst, h.busy]
  exact { h with ie := by rw [State.hostIeWrite_ie, State.hostIeWrite_ie, hw, hd, h.ie] }

/-- The two blocks may issue different pin operations, as long as neither writes the direction (R90 to R92). -/
theorem pinOp (h : SameTiming s t) {p q : PinOp} (hp : p ≠ .init) (hq : q ≠ .init) :
    SameTiming (s.pinOp p) (t.pinOp q) := by
  have hdir : ∀ {p : PinOp} (s : State), p ≠ .init → (s.pinOp p).pinDir = s.pinDir := by
    intro p s hp
    cases p with
    | hold | setLow | setHigh => rfl
    | init => exact absurd rfl hp
  exact ⟨by simp [h.slot], by simp [h.cyc], by simp [h.guardAct], by simp [h.guardEn],
    by rw [hdir s hp, hdir t hq, h.pinDir], by simp [h.ie], by simp [h.cfg], by simp [h.cycle], by simp [h.inputs]⟩

theorem pinOp_init (h : SameTiming s t) : SameTiming (s.pinOp .init) (t.pinOp .init) := { h with pinDir := rfl }

/-- The path of a frame does not depend on its byte (R120). -/
theorem guardSelect (h : SameTiming s t) (op : TxOp) : guardSelect op s = guardSelect op t := by
  cases op <;> simp [Machine.guardSelect, h.cfg, h.guardEn]

/-- `StartFrame` puts the byte nowhere but into `TXD` (R100). -/
theorem startFrame (h : SameTiming s t) (b c : Byte) (g : Bool) : SameTiming (s.startFrame b g) (t.startFrame c g) :=
  { h with slot := rfl, guardAct := rfl, cyc := by simp [h.cfg], ie := by simp [h.ie] }

/-- The sequencer does not read the byte (R101 to R105). -/
theorem advanceSlot (h : SameTiming s t) : SameTiming s.advanceSlot t.advanceSlot := by
  unfold State.advanceSlot
  rw [← h.cyc, ← h.slot]
  split
  · exact { h with cyc := by simp [h.cyc] }
  · cases s.slot with
    | idle => exact h
    | start | data => exact { h with slot := rfl, cyc := by simp [h.cfg] }
    | stop => exact { h with slot := rfl, guardAct := rfl, ie := by simp [h.guardAct, h.ie] }

/-- A command that both blocks accept has the same effect on the timing (R132). -/
theorem afterCommand (h : SameTiming s t) (i : Instr) : SameTiming (afterCommand i s) (afterCommand i t) := by
  cases i with
  | tx b | txGuarded b | txAuto b => simpa only [Machine.afterCommand, h.guardSelect] using h.startFrame b b _
  | init | pinInit => exact h.pinOp_init
  | pinSetLow => exact h.pinOp (p := .setLow) (q := .setLow) nofun nofun
  | pinSetHigh => exact h.pinOp (p := .setHigh) (q := .setHigh) nofun nofun
  | pinHold | reserved0 | reserved6 | reserved7 => exact h
  | setGuard v x => exact { h with guardEn := rfl }

/-- Commands that differ in the byte of a frame at most have the same effect on the timing. -/
theorem afterCommand_of_sameButByte (h : SameTiming s t) {i j : Inputs} (hi : SameButByte i j) :
    SameTiming (Machine.afterCommand (decodeCommand i.cmd) s) (Machine.afterCommand (decodeCommand j.cmd) t) := by
  obtain ⟨_, _, _, _, _, hcmd | ⟨op, b, c, hb, hc⟩⟩ := hi
  · rw [hcmd]; exact h.afterCommand _
  · rw [hb, hc]
    cases op <;> simpa only [TxOp.toInstr, Machine.afterCommand, h.guardSelect] using h.startFrame b c _

end SameTiming

/-- The slot rules never issue PIN_INIT (R98). -/
theorem State.slotPinOp_ne_init (s : State) : s.slotPinOp ≠ .init := by
  rcases s.slotPinOp_cases with h | ⟨_, _, h⟩ <;> rw [h]
  · exact nofun
  · exact entryPinOp_ne_init _ _

/-- A cycle of either block is of the same kind and has the same effect on the timing (R107). -/
theorem SameTiming.advance {s t : State} (h : SameTiming s t) : SameTiming s.advance t.advance := by
  have hi := h.input
  have hstall : s.stalled = t.stalled := h.stall hi
  obtain ⟨hrst, hv, _⟩ := h.input
  cases hr : s.inReset with
  | true =>
    rw [State.advance_of_reset hr, State.advance_of_reset (hrst.symm.trans hr)]
    exact h.tick.toReset
  | false =>
  have hr' : t.inReset = false := hrst.symm.trans hr
  cases hb : s.busy with
  | false =>
    rw [State.advance_of_idle hr hb, State.advance_of_idle hr' (h.busy.symm.trans hb), hv]
    have hw := h.tick.hostIeWrite hi
    split
    · exact hw.afterCommand_of_sameButByte hi
    · exact hw
  | true =>
  have hb' : t.busy = true := h.busy.symm.trans hb
  cases hs : s.stalled with
  | true =>
    rw [State.advance_of_stall hr hs, State.advance_of_stall hr' (hstall.symm.trans hs)]
    exact h.tick.hostIeWrite hi
  | false =>
    rw [State.advance_of_progress hr hs hb, State.advance_of_progress hr' (hstall.symm.trans hs) hb']
    exact h.tick.advanceSlot.pinOp s.slotPinOp_ne_init t.slotPinOp_ne_init

/-- Settles O45: every cycle keeps the agreement of the two blocks in everything but the data. -/
theorem timingIsIndependentOfTheData : Obligations.TimingIsIndependentOfTheData := by
  intro s t k h
  induction k with
  | zero => exact h
  | succ k ih => exact ih.advance

/-! Stalled and unstalled cycles of a run -/

/-- An unstalled cycle is a cycle of progress. -/
theorem State.progress_succ {s : State} {k : Nat} (hk : 1 ≤ k) :
    s.progress (k + 1) = s.progress k + if (s.stateAt k).stalled then 0 else 1 := by
  cases hs : (s.stateAt k).stalled <;> simp [State.progress, hk, hs]

/-- Of the cycles from cycle 1 on, each is stalled or one of progress (R108). -/
theorem State.progress_add_stallCount (s : State) {k : Nat} (hk : 1 ≤ k) : s.progress k + s.stallCount k + 1 = k := by
  induction k, hk using Nat.le_induction with
  | base => simp [State.progress, State.stallCount]
  | succ k hk ih =>
    rw [State.progress_succ hk, State.stallCount]
    cases hs : (s.stateAt k).stalled <;> simp [hk] <;> omega

/-- Progress is never lost. -/
theorem State.progress_mono (s : State) : Monotone s.progress :=
  monotone_nat_of_le_succ fun _ => Nat.le_add_right _ _

/-- Progress is one position a cycle at most. -/
theorem State.progress_le_add (s : State) (k d : Nat) : s.progress (k + d) ≤ s.progress k + d := by
  induction d with
  | zero => exact le_rfl
  | succ d ih =>
    have hstep : s.progress (k + d + 1) ≤ s.progress (k + d) + 1 := by
      rw [State.progress]
      split <;> omega
    rw [← Nat.add_assoc]
    omega

/-- Without a stalled cycle every cycle is one of progress. -/
theorem State.StallFree.progress_eq {s : State} {k : Nat} (h : s.StallFree k) (hk : 1 ≤ k) :
    s.progress k + 1 = k := by
  induction k, hk using Nat.le_induction with
  | base => simp [State.progress]
  | succ k hk ih =>
    have hs := h k k.lt_succ_self hk
    have hp := ih fun j hj => h j (by omega)
    simp [State.progress_succ hk, hs, hp]

/-! A frame's position along a run (R101 to R105, R146) -/

/-- A cycle of a frame keeps the byte in flight (R22). -/
theorem State.Transition.txd_of_busy {s t : State} (h : s.Transition t) (hb : s.busy = true) : t.txd = s.txd := by
  cases h with
  | stall _ _ ht | count _ _ _ ht | enter _ _ _ _ _ ht | finish _ _ _ ht => simp [ht]
  | init hi _ _ _ | start hi _ _ _ _ | idle hi _ _ _ _ => cases hb.symm.trans hi

/-- A stalled cycle keeps the position (R146). -/
theorem State.AtPosition.of_stall {s : State} {p : Nat} (h : s.AtPosition p) (hr : s.inReset = false)
    (hs : s.stalled = true) : s.advance.AtPosition p := by
  rw [State.advance_of_stall hr hs]
  exact ⟨h.busy, h.count⟩

/-- While not all of its `10 * N` positions are over the frame is in flight, at the position that counts the cycles of
progress; with the last it is over, and the line HIGH (R108, R116). -/
theorem State.StartsFrame.inFlight_or_over {s : State} {op : TxOp} {b : Byte} (h : s.StartsFrame op b)
    (hn : 2 ≤ s.cfg.n) {k : Nat} (hk : 1 ≤ k) (hr : s.ResetFree k) (hp : s.progress k ≤ 10 * s.cfg.n) :
    ((s.stateAt k).AtPosition (s.progress k) ∧ (s.stateAt k).txd = b) ∨
      (s.progress k = 10 * s.cfg.n ∧ (s.stateAt k).slot = .idle ∧ (s.stateAt k).pinLevel = true) := by
  induction k, hk using Nat.le_induction with
  | base =>
    have h0 : s.progress 1 = 0 := by simp [State.progress]
    rw [State.stateAt, State.stateAt, h.advance_eq, h0]
    exact .inl ⟨State.atPosition_startFrame (s := s.tick.hostIeWrite s.input) hn b _, rfl⟩
  | succ k hk ih =>
    have hrk : (s.stateAt k).inReset = false := hr k k.lt_succ_self
    have ht := State.transition_of_step hrk (step_eq_advance _)
    rcases ih (fun j hj => hr j (by omega)) ((s.progress_mono k.le_succ).trans hp) with ⟨hpos, htxd⟩ | ⟨hend, hidle, _⟩
    · have htxd' : (s.stateAt (k + 1)).txd = b := (ht.txd_of_busy hpos.busy).trans htxd
      cases hs : (s.stateAt k).stalled with
      | true =>
        rw [State.progress_succ hk, hs]
        exact .inl ⟨hpos.of_stall hrk hs, htxd'⟩
      | false =>
        rw [State.progress_succ hk, hs]
        rcases hpos.of_transition (by simpa using hn) hs ht with ⟨hpos', _⟩ | ⟨hlast, hfin⟩
        · exact .inl ⟨hpos', htxd'⟩
        · obtain ⟨p, rfl⟩ := Nat.exists_eq_add_of_le' hk
          have hidle : (s.stateAt (p + 2)).slot = .idle := congrArg State.slot hfin
          rcases (h.inv_stateAt hn p).idle_pinLevel ht hidle with hl | ⟨hi, _⟩
          · exact .inr ⟨by simpa using hlast, hidle, hl⟩
          · exact absurd hi ((State.busy_iff _).1 hpos.busy)
    · have hs : (s.stateAt k).stalled = false := by
        simp [State.stalled, State.stall, (State.not_busy_iff _).2 hidle]
      have hsucc := State.progress_succ (s := s) hk
      simp only [hs, Bool.false_eq_true, if_false] at hsucc
      omega

/-- While not all of its positions are over the frame is in flight. -/
theorem State.StartsFrame.inFlight {s : State} {op : TxOp} {b : Byte} (h : s.StartsFrame op b) (hn : 2 ≤ s.cfg.n)
    {k : Nat} (hk : 1 ≤ k) (hr : s.ResetFree k) (hp : s.progress k < 10 * s.cfg.n) :
    (s.stateAt k).AtPosition (s.progress k) ∧ (s.stateAt k).txd = b := by
  rcases h.inFlight_or_over hn hk hr hp.le with hin | ⟨hend, _⟩
  · exact hin
  · omega

/-- Once all of its positions are over the block is idle and the line HIGH (R105). -/
theorem State.StartsFrame.over {s : State} {op : TxOp} {b : Byte} (h : s.StartsFrame op b) (hn : 2 ≤ s.cfg.n)
    {k : Nat} (hk : 1 ≤ k) (hr : s.ResetFree k) (hp : s.progress k = 10 * s.cfg.n) :
    (s.stateAt k).slot = .idle ∧ (s.stateAt k).pinLevel = true := by
  rcases h.inFlight_or_over hn hk hr hp.le with ⟨hpos, _⟩ | ⟨_, hover⟩
  · have := hpos.lt
    rw [State.stateAt_cfg] at this
    omega
  · exact hover

/-! Slot and level at a position (R109) -/

/-- The level of a slot of code `i + 1` is bit `i` of the frame (R75, R78). -/
theorem slotLevel_eq_frameBit {sl : Slot} (h : sl ≠ .idle) (txd : Byte) :
    slotLevel sl txd = some (frameBit txd (sl.code.toNat - 1)) := by
  cases sl with
  | idle => exact absurd rfl h
  | start | stop => rfl
  | data k =>
    have hcode : (Slot.code (.data k)).toNat - 1 = 1 + k.val := by revert k; decide
    rw [hcode, frameBit_data txd k.isLt, slotLevel, dataBit]

/-- Position `p` is in the slot of code `p / N + 1` (R75). -/
theorem State.AtPosition.code_eq {s : State} {p : Nat} (h : s.AtPosition p) (hi : s.Inv) :
    s.slot.code.toNat = p / s.cfg.n + 1 := by
  have hcount := h.count
  have hcyc := hi.cycBound h.busy
  have hn := hi.period
  obtain ⟨q, hq⟩ : ∃ q, s.slot.code.toNat = q + 1 :=
    Nat.exists_eq_add_of_le' (Nat.pos_of_ne_zero fun h0 => by simp [h0] at hcount)
  rw [hq] at hcount ⊢
  have hmul := Nat.add_one_mul q s.cfg.n
  rw [Nat.div_eq_of_lt_le (k := q) (by omega) (by omega)]

/-- While the frame is in flight its cycles of progress say which slot is on the line, and at which level (R109). -/
theorem State.StartsFrame.waveform {s : State} {op : TxOp} {b : Byte} (h : s.StartsFrame op b) (hn : 2 ≤ s.cfg.n)
    {k : Nat} (hk : 1 ≤ k) (hr : s.ResetFree k) (hp : s.progress k < 10 * s.cfg.n) :
    (s.stateAt k).slot.code.toNat = s.progress k / s.cfg.n + 1 ∧
      (s.stateAt k).pinLevel = frameBit b (s.progress k / s.cfg.n) := by
  obtain ⟨hpos, htxd⟩ := h.inFlight hn hk hr hp
  obtain ⟨p, rfl⟩ := Nat.exists_eq_add_of_le' hk
  have hi := h.inv_stateAt hn p
  have hcode := hpos.code_eq hi
  rw [State.stateAt_cfg] at hcode
  have hl := hi.level _ (slotLevel_eq_frameBit ((State.busy_iff _).1 hpos.busy) _)
  rw [hcode, htxd] at hl
  exact ⟨hcode, hl⟩

/-! A frame that is over (R108, R116) -/

/-- A command of the TX class with operand `b`, accepted in cycle 0, starts a frame that no reset cuts short and whose
first idle cycle is `K`. -/
structure State.FrameOverAt (s : State) (op : TxOp) (b : Byte) (K : Nat) : Prop where
  period : 2 ≤ s.cfg.n
  starts : s.StartsFrame op b
  pos : 1 ≤ K
  resetFree : s.ResetFree K
  busy : ∀ j, 1 ≤ j → j < K → (s.stateAt j).busy = true
  idle : (s.stateAt K).busy = false

namespace State.FrameOverAt

variable {s : State} {op : TxOp} {b : Byte} {K k : Nat}

theorem resetFree_of_le (h : s.FrameOverAt op b K) (hk : k ≤ K) : s.ResetFree k := fun j hj =>
  h.resetFree j (hj.trans_le hk)

/-- In each of its cycles some of its positions are not over. -/
theorem progress_lt (h : s.FrameOverAt op b K) (hk : 1 ≤ k) (hkK : k < K) : s.progress k < 10 * s.cfg.n := by
  have hn := h.period
  induction k, hk using Nat.le_induction with
  | base =>
    have h0 : s.progress 1 = 0 := by simp [State.progress]
    omega
  | succ k hk ih =>
    have hlt := ih (by omega)
    have hle := s.progress_le_add k 1
    rcases h.starts.inFlight_or_over hn (k := k + 1) (by omega) (h.resetFree_of_le hkK.le) (by omega) with
      ⟨hpos, _⟩ | ⟨_, hidle, _⟩
    · simpa using hpos.lt
    · exact absurd hidle ((State.busy_iff _).1 (h.busy _ k.succ_pos hkK))

/-- It makes `10 * N` cycles of progress, whatever its stalled cycles. -/
theorem progress_eq (h : s.FrameOverAt op b K) : s.progress K = 10 * s.cfg.n := by
  have hle : s.progress K ≤ 10 * s.cfg.n := by
    rcases h.pos.eq_or_lt with rfl | hK
    · simp [State.progress]
    · have hlt := h.progress_lt (k := K - 1) (by omega) (by omega)
      have hstep := s.progress_le_add (K - 1) 1
      rw [Nat.sub_add_cancel h.pos] at hstep
      omega
  rcases h.starts.inFlight_or_over h.period h.pos h.resetFree hle with ⟨hpos, _⟩ | ⟨hend, _⟩
  · cases hpos.busy.symm.trans h.idle
  · exact hend

theorem inFlight (h : s.FrameOverAt op b K) (hk : 1 ≤ k) (hkK : k < K) : (s.stateAt k).AtPosition (s.progress k) :=
  (h.starts.inFlight h.period hk (h.resetFree_of_le hkK.le) (h.progress_lt hk hkK)).1

theorem waveform (h : s.FrameOverAt op b K) (hk : 1 ≤ k) (hkK : k < K) :
    (s.stateAt k).slot.code.toNat = s.progress k / s.cfg.n + 1 ∧
      (s.stateAt k).pinLevel = frameBit b (s.progress k / s.cfg.n) :=
  h.starts.waveform h.period hk (h.resetFree_of_le hkK.le) (h.progress_lt hk hkK)

end State.FrameOverAt

/-- Settles O40: without stalled cycles the cycles of progress are all cycles since the one of acceptance. -/
theorem unstalledFrameWaveform : Obligations.UnstalledFrameWaveform := by
  intro s op b hn h
  refine ⟨fun i hi c hc hc' hr hs => ?slot, fun hr hs => ?after⟩
  case slot =>
    have hp := hs.progress_eq (by omega)
    have hi10 : (i + 1) * s.cfg.n ≤ 10 * s.cfg.n := Nat.mul_le_mul_right _ hi
    have hdiv : s.progress c / s.cfg.n = i := Nat.div_eq_of_lt_le (by omega) (by omega)
    obtain ⟨hcode, hl⟩ := h.waveform hn (k := c) (by omega) hr (by omega)
    rw [hdiv] at hcode hl
    refine ⟨hl, hcode, fun hd => ?_⟩
    rw [State.pad, (State.pinDir_stateAt_iff hr).2 (.inl hd), hl, if_pos rfl]
  case after =>
    exact h.over hn (by omega) hr (Nat.succ.inj (hs.progress_eq (by omega)))

/-- Settles O41: each cycle is stalled or one of progress, and the frame is in flight for `10 * N` of progress. -/
theorem frameDuration : Obligations.FrameDuration := by
  intro s op b hn h
  refine ⟨fun hr hs => ⟨fun k hk hk' => ?busy, ?idle⟩, fun K hK hr hbusy hidle => ?duration⟩
  case busy =>
    have hp := State.StallFree.progress_eq (s := s) (k := k) (fun j hj => hs j (by omega)) hk
    obtain ⟨hpos, _⟩ := h.inFlight hn hk (fun j hj => hr j (by omega)) (by omega)
    exact hpos.busy
  case idle =>
    exact (h.over hn (by omega) hr (Nat.succ.inj (hs.progress_eq (by omega)))).1
  case duration =>
    have hp := State.FrameOverAt.progress_eq ⟨hn, h, hK, hr, hbusy, hidle⟩
    have := s.progress_add_stallCount hK
    omega

/-- The code before STOP's is that of DATA7 (R75). -/
theorem Slot.eq_data7_of_code {sl : Slot} (h : sl.code.toNat = 9) : sl = .data 7 := by
  cases sl with
  | idle | start | stop => exact absurd h (by decide)
  | data k => revert k; decide

/-- Settles O49: the last `N` cycles before the end have the last `N` positions at least, which are the stop slot's; and
without stalled cycles the one before them has the last position of DATA7. -/
theorem gapBetweenFrames : Obligations.GapBetweenFrames := by
  intro s op b K hn h hK hr1 hbusy hidle
  have hr : s.ResetFree K := fun j hj => hr1 j (by omega)
  have hover : s.FrameOverAt op b K := ⟨hn, h, hK, hr, hbusy, hidle⟩
  have hend := hover.progress_eq
  have hcount := s.progress_add_stallCount hK
  obtain ⟨hsl, hl⟩ := h.over hn hK hr hend
  refine ⟨⟨by omega, fun c hc hcK => ?stop⟩, hsl, hl, fun op' b' h' => ?next, fun hs => ?unstalled⟩
  case stop =>
    have hc1 : 1 ≤ c := by omega
    have hpos := hover.inFlight hc1 hcK
    have hdist := s.progress_le_add c (K - c)
    rw [Nat.add_sub_cancel' hcK.le] at hdist
    obtain ⟨p, rfl⟩ := Nat.exists_eq_add_of_le' hc1
    have hstop := hpos.slot_eq_stop (by rw [State.stateAt_cfg]; omega)
    exact ⟨hstop, (h.inv_stateAt hn p).pinLevel_of_stop hstop⟩
  case next =>
    rw [State.stateAt, h'.advance_eq]
    rfl
  case unstalled =>
    have hKn : K = 10 * s.cfg.n + 1 := by rw [← hend, hs.progress_eq hK]
    obtain ⟨c, hc⟩ : ∃ c, K - s.cfg.n - 1 = c := ⟨_, rfl⟩
    have hp := State.StallFree.progress_eq (s := s) (k := c) (fun j hj => hs j (by omega)) (by omega)
    have hdiv : s.progress c / s.cfg.n = 8 := Nat.div_eq_of_lt_le (by omega) (by omega)
    obtain ⟨hcode, hl⟩ := hover.waveform (k := c) (by omega) (by omega)
    rw [hdiv] at hcode hl
    rw [hc]
    exact ⟨hKn, Slot.eq_data7_of_code hcode, hl.trans (frameBit_data b (k := 7) (by decide))⟩

/-! Stalled cycles by slot (R116) -/

/-- How many of the cycles 1 up to, not including, `k` are stalled in one of the first `n` slots. -/
def State.stallsBelow (s : State) (n k : Nat) : Nat := ((List.range n).map fun m => s.stallsInSlot m k).sum

theorem State.stallsBelow_succ_slot (s : State) (n k : Nat) :
    s.stallsBelow (n + 1) k = s.stallsBelow n k + s.stallsInSlot n k := by
  simp [State.stallsBelow, List.range_succ]

/-- A slot of a frame has a positive code (R75). -/
theorem Slot.code_pos {sl : Slot} (h : sl ≠ .idle) : 1 ≤ sl.code.toNat := by
  cases sl with
  | idle => exact absurd rfl h
  | start | stop => decide
  | data k => clear h; revert k; decide

/-- A stalled cycle counts among the first `n` slots where its slot is one of them. -/
theorem State.stallsBelow_succ (s : State) (n : Nat) {k : Nat} (hk : 1 ≤ k) :
    s.stallsBelow n (k + 1) = s.stallsBelow n k +
      if (s.stateAt k).stalled = true ∧ (s.stateAt k).slot.code.toNat ≤ n then 1 else 0 := by
  cases hs : (s.stateAt k).stalled with
  | false => simp [State.stallsBelow, State.stallsInSlot, hs]
  | true =>
    have hpos := Slot.code_pos ((State.busy_iff _).1 ((State.stall_iff _ _).1 hs).1)
    induction n with
    | zero =>
      rw [if_neg (by omega)]
      rfl
    | succ n ih =>
      rw [State.stallsBelow_succ_slot, State.stallsBelow_succ_slot, ih, State.stallsInSlot]
      simp only [hs, hk, true_and]
      split <;> split <;> split <;> omega

/-- Before cycle 1 no cycle counts. -/
theorem State.stallsBelow_one (s : State) (n : Nat) : s.stallsBelow n 1 = 0 := by
  simp [State.stallsBelow, State.stallsInSlot]

/-- In a stretch of cycles in later slots nothing is added to the first `n`. -/
theorem State.stallsBelow_eq_of_lt_code {s : State} {n a k : Nat} (ha : 1 ≤ a) (hak : a ≤ k)
    (hc : ∀ j, a ≤ j → j < k → n < (s.stateAt j).slot.code.toNat) : s.stallsBelow n k = s.stallsBelow n a := by
  induction k, hak using Nat.le_induction with
  | base => rfl
  | succ k hak ih =>
    have hk := hc k hak k.lt_succ_self
    rw [State.stallsBelow_succ s n (ha.trans hak), if_neg (by omega), ih fun j hj hj' => hc j hj (by omega)]
    rfl

/-- As long as no later slot is reached all stalled cycles are in the first `n`. -/
theorem State.stallsBelow_eq_stallCount {s : State} {n k : Nat} (hk : 1 ≤ k)
    (hc : ∀ j, 1 ≤ j → j < k → (s.stateAt j).slot.code.toNat ≤ n) : s.stallsBelow n k = s.stallCount k := by
  induction k, hk using Nat.le_induction with
  | base => simp [State.stallsBelow_one, State.stallCount]
  | succ k hk ih =>
    have hck := hc k hk k.lt_succ_self
    rw [State.stallsBelow_succ s n hk, State.stallCount, ih fun j hj hj' => hc j hj (by omega)]
    simp [hk, hck]

/-- The count never goes down. -/
theorem State.stallsBelow_mono (s : State) (n : Nat) : Monotone (s.stallsBelow n) :=
  monotone_nat_of_le_succ fun k => by
    cases k with
    | zero => simp [State.stallsBelow, State.stallsInSlot]
    | succ k => exact (Nat.le_add_right _ _).trans_eq (s.stallsBelow_succ n k.succ_pos).symm

/-- The first cycle of slot `i`, in a frame that is over at cycle `K`. -/
def State.slotStart (s : State) (K i : Nat) : Nat := 1 + i * s.cfg.n + s.stallsBelow i K

/-- The slots start one after the other. -/
theorem State.slotStart_mono (s : State) (K : Nat) : Monotone (s.slotStart K) :=
  monotone_nat_of_le_succ fun i => by
    rw [State.slotStart, State.slotStart, State.stallsBelow_succ_slot, Nat.add_one_mul]
    omega

/-- A frame that is over ends where an eleventh slot would start (R108). -/
theorem State.FrameOverAt.slotStart_ten {s : State} {op : TxOp} {b : Byte} {K : Nat} (h : s.FrameOverAt op b K) :
    s.slotStart K 10 = K := by
  have hend := h.progress_eq
  have hcount := s.progress_add_stallCount h.pos
  rw [State.slotStart, State.stallsBelow_eq_stallCount h.pos fun j _ _ => Slot.code_le _]
  omega

/-- A cycle of a frame that is over at cycle `K` lies within its slot: the stalled cycles of the slots before are all
counted, those of its own slot in part (R116). -/
theorem State.FrameOverAt.mem_slot {s : State} {op : TxOp} {b : Byte} {K c : Nat} (h : s.FrameOverAt op b K)
    (hc : 1 ≤ c) (hcK : c < K) :
    s.slotStart K (s.progress c / s.cfg.n) ≤ c ∧ c < s.slotStart K (s.progress c / s.cfg.n + 1) := by
  have hn := h.period
  obtain ⟨q, hq⟩ : ∃ q, s.progress c / s.cfg.n = q := ⟨_, rfl⟩
  have hlater : s.stallsBelow q K = s.stallsBelow q c :=
    State.stallsBelow_eq_of_lt_code hc hcK.le fun j hj hjK => by
      have := Nat.div_le_div_right (c := s.cfg.n) (s.progress_mono hj)
      rw [(h.waveform (hc.trans hj) hjK).1]
      omega
  have hall : s.stallsBelow (q + 1) c = s.stallCount c :=
    State.stallsBelow_eq_stallCount hc fun j hj hjc => by
      have := Nat.div_le_div_right (c := s.cfg.n) (s.progress_mono hjc.le)
      rw [(h.waveform hj (hjc.trans hcK)).1]
      omega
  have hown := s.stallsBelow_succ_slot q c
  have hrest := s.stallsBelow_mono (q + 1) hcK.le
  have hcount := s.progress_add_stallCount hc
  have hlow : q * s.cfg.n ≤ s.progress c := hq ▸ Nat.div_mul_le_self _ _
  have hhigh : s.progress c < (q + 1) * s.cfg.n := (Nat.div_lt_iff_lt_mul (by omega)).1 (by omega)
  rw [hq, State.slotStart, State.slotStart]
  omega

/-- Settles O42: the slots' intervals follow one another from cycle 1 to `K`, so that a cycle within the interval of slot
`i` is in no other slot. -/
theorem stalledFrameWaveform : Obligations.StalledFrameWaveform := by
  intro s op b K hn hf hK hr hbusy hidle
  have h : s.FrameOverAt op b K := ⟨hn, hf, hK, hr, hbusy, hidle⟩
  refine ⟨fun i hi c hc hc' => ?slot, h.slotStart_ten.symm⟩
  replace hc : s.slotStart K i ≤ c := hc
  replace hc' : c < s.slotStart K (i + 1) := hc'
  have hc1 : 1 ≤ c := by
    rw [State.slotStart] at hc
    omega
  have hcK : c < K := hc'.trans_le ((s.slotStart_mono K hi).trans h.slotStart_ten.le)
  obtain ⟨hlow, hhigh⟩ := h.mem_slot hc1 hcK
  have hq : s.progress c / s.cfg.n = i := by
    have hle := (s.slotStart_mono K).reflect_lt (hlow.trans_lt hc')
    have hge := (s.slotStart_mono K).reflect_lt (hc.trans_lt hhigh)
    omega
  obtain ⟨hcode, hl⟩ := h.waveform hc1 hcK
  rw [hq] at hcode hl
  exact ⟨hcode, hl⟩

end Sys2Proof.Machine
end

section
/-! PROOFS of the family `42_guard_policy`: the path of a frame, the flag `GUARD_EN`, the parameter `FORCE_GUARD`, and
the guarded frame (spec 42_guard_policy.md R120 to R127). -/

namespace Sys2Proof.Machine

/-! The guarded frame (R127) -/

/-- From the cycle after acceptance to its last one a guarded frame stays guarded, with `IE = 0`, and is not stalled
(R127). -/
theorem State.StartsFrame.guarded_cycle {s : State} {op : TxOp} {b : Byte} (h : s.StartsFrame op b) (hn : 2 ≤ s.cfg.n)
    (hg : guardSelect op s = true) {c : Nat} (hc : 1 ≤ c) (hc' : c ≤ 10 * s.cfg.n) (hr : s.ResetFree c) :
    (s.stateAt c).guardAct = true ∧ (s.stateAt c).ie = false ∧ (s.stateAt c).stalled = false := by
  obtain ⟨p, rfl⟩ := Nat.exists_eq_add_of_le' hc
  obtain ⟨_, hga⟩ := h.guarded_atPosition hn hg hc' hr
  have hi := h.inv_stateAt hn p
  exact ⟨hga, (hi.guarded hga).2, hi.not_stalled_of_guarded hga⟩

/-- Up to its end a guarded frame has no stalled cycle (R127). -/
theorem State.StartsFrame.guarded_stallFree {s : State} {op : TxOp} {b : Byte} (h : s.StartsFrame op b)
    (hn : 2 ≤ s.cfg.n) (hg : guardSelect op s = true) {c : Nat} (hc : c ≤ 10 * s.cfg.n + 1) (hr : s.ResetFree c) :
    s.StallFree c := fun j hj hj1 =>
  (h.guarded_cycle hn hg hj1 (by omega) fun i hi => hr i (hi.trans hj)).2.2

/-- Settles O43: a guarded frame is not stalled, so that every cycle is one of progress and the waveform by progress is
the unstalled one. -/
theorem guardedFrameIsNeverStalled : Obligations.GuardedFrameIsNeverStalled := by
  intro s op b hn h hg
  refine ⟨fun c hc hc' hr => ?cycle, fun hr => (h.guarded_end hn hg hr).1⟩
  case cycle =>
    obtain ⟨hga, hie, hst⟩ := h.guarded_cycle hn hg hc hc' hr
    have hp : s.progress c = c - 1 :=
      Nat.eq_sub_of_add_eq ((h.guarded_stallFree hn hg (by omega) hr).progress_eq hc)
    obtain ⟨hcode, hl⟩ := h.waveform hn hc hr (by omega)
    rw [hp] at hcode hl
    exact ⟨hga, hie, hst, hl, hcode⟩

/-! SET_GUARD and the flag (R123) -/

/-- No command but SET_GUARD writes `GUARD_EN` (R123). -/
theorem afterCommand_guardEn {i : Instr} (hi : ∀ v x, i ≠ .setGuard v x) (s : State) :
    (afterCommand i s).guardEn = s.guardEn := by
  cases i with
  | setGuard v x => exact absurd rfl (hi v x)
  | reserved0 | reserved6 | reserved7 | init | tx | txGuarded | txAuto | pinHold | pinSetLow | pinSetHigh | pinInit =>
    rfl

/-- A cycle outside reset that accepts no SET_GUARD keeps `GUARD_EN` (R123). -/
theorem guardEn_of_step {s t : State} (hr : s.inReset = false) (hg : ∀ v x, s.accepts ≠ some (.setGuard v x))
    (h : step s = .next t) : t.guardEn = s.guardEn := by
  rcases step_cases h with ⟨a, _⟩ | ⟨_, _, ht⟩ | ⟨_, _, _, ht⟩ | ⟨_, hb, hv, ht⟩ | ⟨_, _, _, ht⟩
  · exact absurd (a.symm.trans hr) (by decide)
  · simp [ht]
  · simp [ht]
  · have hi : ∀ v x, decodeCommand s.input.cmd ≠ .setGuard v x := fun v x e =>
      hg v x (State.accepts_eq_some.2 ⟨hr, hb, hv, e⟩)
    simp [ht, afterCommand_guardEn hi]
  · simp [ht]

/-- Settles O10: SET_GUARD is the one command that writes the flag, the slot rules and the host's write of `IE` do not,
and `ResetState` has it 1. -/
theorem setGuardAloneWritesTheFlag : Obligations.SetGuardAloneWritesTheFlag := by
  refine ⟨fun _ _ _ => rfl, fun s t v x ha h => ?accepted, fun s t => guardEn_of_step, fun s t hr h => ?reset,
    fun s => State.accepts_of_busy, fun x => ⟨guardIgnored x, by simp [decodeCommand, guardOperand]⟩⟩
  case accepted =>
    obtain ⟨_, hb, _⟩ := State.accepts_eq_some.1 ha
    rw [eq_advance_of_step h, State.advance_of_accepts ha]
    exact ⟨rfl, hb, rfl, rfl, rfl⟩
  case reset => rw [eq_advance_of_step h, State.advance_of_reset hr, State.toReset_guardEn]

/-! The path of a frame (R120) -/

/-- A cycle of a frame after which the frame goes on keeps `GUARD_ACT` (R25, R120). -/
theorem State.Transition.guardAct_of_busy {s t : State} (h : s.Transition t) (hb : s.busy = true)
    (hb' : t.busy = true) : t.guardAct = s.guardAct := by
  cases h with
  | stall _ _ ht | count _ _ _ ht | enter _ _ _ _ _ ht => simp [ht]
  | finish _ _ _ ht => exact absurd (congrArg State.slot ht) ((State.busy_iff t).1 hb')
  | init hi _ _ _ | start hi _ _ _ _ | idle hi _ _ _ _ => cases hb.symm.trans hi

/-- Settles O33: the start of a frame stores `GuardSelect` of the cycle of acceptance, which the host's write of `IE` in
it does not touch, and no slot rule but the end of the frame writes `GUARD_ACT`. -/
theorem guardPathIsChosenAtAcceptance : Obligations.GuardPathIsChosenAtAcceptance := by
  refine ⟨fun _ => ⟨rfl, rfl, rfl⟩, fun s t op b hf h => ?stored, fun s t hr hb hb' h => ?kept⟩
  case stored => rw [eq_advance_of_step h, hf.advance_eq, State.startFrame_guardAct]
  case kept => exact (State.transition_of_step hr h).guardAct_of_busy hb hb'

/-! The parameter `FORCE_GUARD` (R126) -/

/-- With `FORCE_GUARD` every command of the TX class takes the guarded path (R126). -/
theorem guardSelect_of_forceGuard {s : State} (h : s.cfg.forceGuard = true) (op : TxOp) : guardSelect op s = true := by
  cases op with
  | tx => exact h
  | txGuarded => rfl
  | txAuto => simp [guardSelect, h]

/-- A command that starts no frame reads no parameter (R132). -/
theorem afterCommand_withCfg_of_not_tx {i : Instr} (hi : ∀ op b, i ≠ TxOp.toInstr op b) (c : Config) (s : State) :
    afterCommand i (s.withCfg c) = (afterCommand i s).withCfg c := by
  cases i with
  | tx b => exact absurd rfl (hi .tx b)
  | txGuarded b => exact absurd rfl (hi .txGuarded b)
  | txAuto b => exact absurd rfl (hi .txAuto b)
  | init | pinHold | pinSetLow | pinSetHigh | pinInit => simp only [afterCommand, State.withCfg_pinOp]
  | reserved0 | reserved6 | reserved7 | setGuard => rfl

/-- A cycle that starts no frame does not read `FORCE_GUARD`, whatever its kind (R126, R135). -/
theorem State.advance_forceGuard {s : State} (hf : ∀ op b, ¬ s.StartsFrame op b) (f : Bool) :
    (s.withCfg { s.cfg with forceGuard := f }).advance = s.advance.withCfg { s.cfg with forceGuard := f } := by
  generalize hcfg : { s.cfg with forceGuard := f } = c
  cases hr : s.inReset with
  | true =>
    rw [State.advance_of_reset hr, State.advance_of_reset (s := s.withCfg c) hr]
    subst hcfg
    rfl
  | false =>
  cases hb : s.busy with
  | false =>
    rw [State.advance_of_idle hr hb, State.advance_of_idle (s := s.withCfg c) hr hb]
    cases hv : s.input.cmdValid with
    | false => simp [hv]
    | true =>
      have hi : ∀ op b, decodeCommand s.input.cmd ≠ TxOp.toInstr op b := fun op b e =>
        hf op b (State.accepts_eq_some.2 ⟨hr, hb, hv, e⟩)
      simp [hv, afterCommand_withCfg_of_not_tx hi]
  | true =>
  cases hs : s.stalled with
  | true =>
    rw [State.advance_of_stall hr hs, State.advance_of_stall (s := s.withCfg c) hr hs]
    simp
  | false =>
    have hn : c.n = s.tick.cfg.n := by rw [← hcfg]; rfl
    rw [State.advance_of_progress hr hs hb, State.advance_of_progress (s := s.withCfg c) hr hs hb]
    simp [State.withCfg_advanceSlot hn]

/-- Settles O34: `GuardSelect` is the one place that reads the parameter, and only the start of a frame asks it. -/
theorem forceGuardGuardsEveryFrame : Obligations.ForceGuardGuardsEveryFrame := by
  refine ⟨fun s op b h => ⟨_, exec_txOp op b s, ?guarded⟩, fun _ _ => ⟨rfl, rfl⟩, fun _ _ _ _ => rfl,
    fun s t f hf h => ?otherCycle⟩
  case guarded => simp [guardSelect_of_forceGuard h]
  case otherCycle =>
    rw [eq_advance_of_step h]
    exact (step_eq_advance _).trans (congrArg _ (State.advance_forceGuard hf f))

/-! TX_GUARDED and TX_AUTO (R121, R122) -/

/-- Settles O8: TX_GUARDED runs `StartFrame` on the guarded path. -/
theorem txGuardedStartsAGuardedFrame : Obligations.TxGuardedStartsAGuardedFrame :=
  ⟨fun b s => exec_txOp .txGuarded b s, fun b => by simp [decodeCommand]⟩

/-- Two commands of the TX class that select the same path do the same (R120, R132). -/
theorem exec_txOp_congr {op op' : TxOp} {s : State} (h : guardSelect op s = guardSelect op' s) (b : Byte) :
    exec (op.toInstr b) s = exec (op'.toInstr b) s := by
  rw [exec_txOp, exec_txOp, h]

/-- Settles O9: TX_AUTO runs `StartFrame` by `FORCE_GUARD` or the flag, which is the path of TX_GUARDED or of TX. -/
theorem txAutoStartsAFrameByTheFlag : Obligations.TxAutoStartsAFrameByTheFlag := by
  refine ⟨fun b => by simp [decodeCommand], fun b s => ⟨exec_txOp .txAuto b s, fun hg => ?flagSet,
    fun hg hf => ?flagClear⟩⟩
  case flagSet => exact exec_txOp_congr (op := .txAuto) (op' := .txGuarded) (by simp [guardSelect, hg]) b
  case flagClear => exact exec_txOp_congr (op := .txAuto) (op' := .tx) (by simp [guardSelect, hg, hf]) b

end Sys2Proof.Machine
end

section
/-! PROOFS of the family `43_engine_top`: the command port and the outputs, the effect of each opcode, and that every
step answers a next state (spec 43_engine_top.md R130 to R137). -/

namespace Sys2Proof.Machine

/-! The outputs and the pad (R95, R136) -/

theorem State.busy_eq_decide (s : State) : s.busy = decide (s.slot ≠ .idle) :=
  Bool.eq_iff_iff.2 (s.busy_iff.trans decide_eq_true_iff.symm)

/-- The port is ready exactly between frames (R130). -/
theorem State.cmdReady_iff (s : State) : s.cmdReady = true ↔ s.slot = .idle := by
  rw [← s.not_busy_iff, State.cmdReady, Bool.not_eq_true']

/-- The pad has one value for each case of the two pin registers (R95). -/
theorem State.pad_eq_iff (s : State) : (s.pad = .z ↔ s.pinDir = false) ∧
    (s.pad = .high ↔ s.pinDir = true ∧ s.pinLevel = true) ∧
    (s.pad = .low ↔ s.pinDir = true ∧ s.pinLevel = false) := by
  cases hd : s.pinDir <;> cases hl : s.pinLevel <;> simp [State.pad, hd, hl]

/-- Settles O26: `busy` and `cmd_ready` are the two sides of `SLOT = IDLE`, `stall` reads `busy`, and the
pad reads the two pin registers. -/
theorem outputsOfACycle : Obligations.OutputsOfACycle := by
  intro s i
  obtain ⟨hz, hhigh, hlow⟩ := s.pad_eq_iff
  refine ⟨?outputs, hz, hhigh, hlow, fun hr => ?inReset⟩
  case outputs => simp [State.outputs, State.cmdReady, State.stall, s.busy_eq_decide]
  case inReset => exact if_pos hr

/-! Every step answers a next state (R137) -/

/-- Reset answers a next state, and every other arm of `Step` runs an instruction, which does too (R135, R137). -/
theorem exists_clockEdge_eq_next (i : Inputs) (s : State) : ∃ t, clockEdge i s = .next t := by
  unfold clockEdge
  split_ifs
  · exact ⟨_, rfl⟩
  all_goals exact ⟨_, exec_eq _ _⟩

/-- The machine's run of `k` steps ends in the state called `stateAt k`. -/
theorem run_core_eq_stateAt (k : Nat) (s : State) : Host.Core.run core k s = .next (s.stateAt k) := by
  induction k generalizing s with
  | zero => rfl
  | succ k ih =>
    calc Host.Core.run core (k + 1) s
        = Host.Core.run core k s.advance := run_succ core k (step_eq_advance s)
      _ = .next (s.advance.stateAt k) := ih s.advance
      _ = .next (s.stateAt (k + 1)) := by rw [Nat.add_comm, State.stateAt_add]; rfl

/-- Settles O19: each arm of `Step` answers a next state, and a run goes on from it. -/
theorem stepIsTotalAndRunsNeverStop : Obligations.StepIsTotalAndRunsNeverStop :=
  ⟨exists_clockEdge_eq_next, fun s k => run_core_eq_stateAt k s⟩

/-! The command port (R130) -/

/-- In a cycle of a frame `Step` has no arm that reads the command port (R130, R135). -/
theorem clockEdge_of_busy {s : State} (hb : s.busy = true) (i : Inputs) : clockEdge i s =
    if i.rst then .next s.toReset
    else if s.stall i then exec PinOp.hold.toInstr (s.hostIeWrite i)
    else exec s.slotPinOp.toInstr (s.hostIeWrite i).advanceSlot := by
  rw [clockEdge, if_pos hb]

/-- In a cycle without a command presented `Step` does not read the word on the port (R130, R135). -/
theorem clockEdge_of_no_command {i : Inputs} (hv : i.cmdValid = false) (s : State) : clockEdge i s =
    if i.rst then .next s.toReset
    else if s.stall i then exec PinOp.hold.toInstr (s.hostIeWrite i)
    else if s.busy then exec s.slotPinOp.toInstr (s.hostIeWrite i).advanceSlot
    else exec PinOp.hold.toInstr (s.hostIeWrite i) := by
  simp only [clockEdge, hv, Bool.false_eq_true, if_false]

/-- Settles O20: acceptance asks for the three conditions of R130, and without the port ready, or without a command
presented, the step reads nothing of what the statement replaces. -/
theorem commandPortHandshake : Obligations.CommandPortHandshake := by
  refine ⟨State.cmdReady_iff, fun s i w => ?accepted, fun s i v w hr => ?notReady, fun s i w hv => ?notValid⟩
  case accepted =>
    rw [State.acceptedWord_eq_some, State.cmdReady, Bool.not_eq_true']
    exact ⟨fun ⟨hr, hb, hv, hw⟩ => ⟨hv, hb, hr, hw⟩, fun ⟨hv, hb, hr, hw⟩ => ⟨hr, hb, hv, hw⟩⟩
  case notReady =>
    have hb : s.busy = true := by simpa [State.cmdReady] using hr
    rw [clockEdge_of_busy hb, clockEdge_of_busy hb]
    rfl
  case notValid =>
    rw [clockEdge_of_no_command hv, clockEdge_of_no_command (i := { i with cmd := w }) hv]
    rfl

/-! Dispatch (R132, R134) -/

/-- Settles O21: the word of each opcode is decoded to its own instruction, and the effect of that instruction is
settled above. -/
theorem dispatchSelectsByOpcode : Obligations.DispatchSelectsByOpcode := by
  intro b s
  obtain ⟨hreserved, _, hdecReserved, _⟩ := reservedOpcodesChangeNothing
  obtain ⟨hinit, _, _, _, _, _, hdecInit⟩ := initRaisesAndDrivesThePin
  obtain ⟨htx, _, _, hdecTx⟩ := txStartsAFrameByTheParameter
  obtain ⟨hguarded, hdecGuarded⟩ := txGuardedStartsAGuardedFrame
  obtain ⟨hdecAuto, hauto⟩ := txAutoStartsAFrameByTheFlag
  obtain ⟨hset, _, _, _, _, hdecSet⟩ := setGuardAloneWritesTheFlag
  obtain ⟨h0, h6, h7⟩ := hreserved b s
  obtain ⟨hdec0, hdec6, hdec7⟩ := hdecReserved b
  obtain ⟨ignored, hdecSetB⟩ := hdecSet b
  rw [hdec0, hdecInit, hdecTx, hdecGuarded, hdecAuto, hdecSetB, hdec6, hdec7]
  exact ⟨h0, hinit b s, htx b s, hguarded b s, (hauto b s).1, hset _ ignored s, h6, h7⟩

/-- Only a command of the TX class writes `SLOT` (R132, R134). -/
theorem afterCommand_slot_of_not_tx {i : Instr} (h : i.txClass = none) (s : State) :
    (afterCommand i s).slot = s.slot := by
  cases i with
  | tx | txGuarded | txAuto => cases h
  | reserved0 | reserved6 | reserved7 | init | setGuard | pinHold | pinSetLow | pinSetHigh | pinInit => rfl

/-- Settles O11: a command is accepted while idle, and outside the TX class it leaves the block idle. -/
theorem singleCycleCommandsLeaveThePortReady : Obligations.SingleCycleCommandsLeaveThePortReady := by
  intro s i ha htx
  obtain ⟨_, hb, _⟩ := State.accepts_eq_some.1 ha
  have hidle : s.advance.slot = .idle := by
    rw [State.advance_of_accepts ha, afterCommand_slot_of_not_tx htx]
    exact s.not_busy_iff.1 hb
  exact ⟨s.advance, step_eq_advance s, hidle, s.advance.not_busy_iff.2 hidle, s.advance.cmdReady_iff.2 hidle⟩

end Sys2Proof.Machine
end

section
/-! PROOFS of the family `60_exceptions`: stalled and idle cycles, the host's write of `IE`, and the order of the events
of one cycle (spec 60_exceptions.md R144 to R149, R156). -/

namespace Sys2Proof.Machine

/-! Stalled cycles (R146) -/

/-- A stalled cycle moves the schedule on and takes the host's write of `IE`, nothing else (R146, R148). -/
theorem State.advance_of_stall_eq {s : State} (hr : s.inReset = false) (hs : s.stalled = true) :
    s.advance = { s with ie := if s.input.ieWe then s.input.ieD else s.ie, inputs := s.inputs.tail,
                         cycle := s.cycle + 1 } := by
  rw [State.advance_of_stall hr hs, State.hostIeWrite_of_stall (s := s.tick) hs]
  rfl

/-- Settles O27: a stalled cycle writes `IE` at most, and a cycle can be stalled only while busy. -/
theorem stalledCycleHoldsTheFrame : Obligations.StalledCycleHoldsTheFrame := by
  intro s hr hs
  obtain ⟨hb, _⟩ := (State.stall_iff _ _).1 hs
  refine ⟨s.advance, step_eq_advance s, ?_⟩
  rw [State.advance_of_stall_eq hr hs]
  exact ⟨rfl, State.issuedPinOp_of_stall hs, hb⟩

/-! Idle cycles (R156) -/

/-- No cycle is stalled while idle (R145). -/
theorem State.stall_of_idle {s : State} (hb : s.busy = false) (i : Inputs) : s.stall i = false := by
  simp [State.stall, hb]

/-- While idle `Step` resets, or dispatches the command presented after the host's write of `IE` (R130, R135). -/
theorem clockEdge_of_idle {s : State} (hb : s.busy = false) (i : Inputs) : clockEdge i s =
    if i.rst then .next s.toReset
    else exec (if i.cmdValid then decodeCommand i.cmd else .pinHold)
      { s with ie := if i.ieWe then i.ieD else s.ie } := by
  rw [← State.hostIeWrite_of_idle hb, apply_ite (exec · (s.hostIeWrite i))]
  simp only [clockEdge, State.stall_of_idle hb, hb, Bool.false_eq_true, if_false, PinOp.toInstr]

/-- An idle cycle outside reset in which no command is accepted has none presented (R130). -/
theorem State.cmdValid_of_accepts_none {s : State} (hr : s.inReset = false) (hb : s.busy = false)
    (ha : s.accepts = none) : s.input.cmdValid = false := by
  by_contra hv
  have hi := State.accepts_eq_some.2 ⟨hr, hb, Bool.eq_true_of_not_eq_false hv, rfl⟩
  cases ha.symm.trans hi

/-- Settles O25: while idle `stall` is 0 whatever `irq` is, and no other rule reads `irq`; without a command and a host
write the idle cycle runs PIN_HOLD. -/
theorem interruptsWhileIdleDoNothing : Obligations.InterruptsWhileIdleDoNothing := by
  refine ⟨fun i r s hb => ⟨?edge, ?outputs, State.stall_of_idle hb i⟩, fun s hb hr ha hw => ?quiet⟩
  case edge => rw [clockEdge_of_idle hb, clockEdge_of_idle hb]
  case outputs => simp only [State.outputs, State.stall_of_idle hb]
  case quiet =>
    rw [step_eq_advance, State.advance_of_idle hr hb, State.cmdValid_of_accepts_none hr hb ha,
      State.hostIeWrite_of_idle (s := s.tick) hb, hw]
    rfl

/-! The host's write of `IE` (R148) -/

/-- The host's write is honoured when it is made while idle or in a stalled cycle (R148). -/
theorem State.ieWriteHonoured_iff (i : Inputs) (s : State) :
    s.ieWriteHonoured i = true ↔ i.ieWe = true ∧ (s.busy = false ∨ s.stall i = true) := by
  simp [State.ieWriteHonoured]

/-- An honoured write of `IE` lands, where no guard entry overrides it (R124, R148). -/
theorem State.Transition.ie_of_honoured {s t : State} (h : s.Transition t) (hw : s.ieWriteHonoured s.input = true)
    (hg : ∀ op b, s.StartsFrame op b → guardSelect op s = false) : t.ie = s.input.ieD := by
  have hwhen := ((State.ieWriteHonoured_iff _ _).1 hw).2
  have hprogress : s.busy = true → s.stalled = false → t.ie = s.input.ieD := fun hb hs => by
    rcases hwhen with hb' | hs'
    · cases hb.symm.trans hb'
    · cases hs.symm.trans hs'
  cases h with
  | stall _ _ ht | init _ _ _ ht | idle _ _ _ _ ht => simp [ht, hw]
  | start _ op b ha ht => simp [ht, hw, hg op b ha]
  | count hb hs _ _ | enter hb hs _ _ _ _ => exact hprogress hb hs
  | finish hs _ hsl _ => exact hprogress ((State.busy_iff s).2 (by simp [hsl])) hs

/-- In a cycle of a frame that is not stalled `Step` resets or applies the slot rule; it does not read the host's write
port (R135, R148). -/
theorem clockEdge_of_progress {i : Inputs} {s : State} (hb : s.busy = true) (hs : s.stall i = false) : clockEdge i s =
    if i.rst then .next s.toReset else exec s.slotPinOp.toInstr s.advanceSlot := by
  rw [clockEdge_of_busy hb, State.hostIeWrite_of_progress hb hs, hs]
  rfl

/-- Settles O23: an honoured write lands in every kind of cycle in which one can be made, the slot rules do not read the
port, and with `IE = 0` no cycle is stalled. -/
theorem hostWritesIeOnlyWhenItsCodeRuns : Obligations.HostWritesIeOnlyWhenItsCodeRuns := by
  refine ⟨fun s t hr hw hwhen hg h => ?lands, fun i s d hb hs => ?ignored, fun s t hr hs hw hd h => ?resumes⟩
  case lands =>
    exact (State.transition_of_step hr h).ie_of_honoured ((State.ieWriteHonoured_iff _ _).2 ⟨hw, hwhen⟩) hg
  case ignored =>
    have hs' : ∀ w d, s.stall { i with ieWe := w, ieD := d } = false := fun _ _ => hs
    rw [clockEdge_of_progress hb (hs' true d), clockEdge_of_progress hb (hs' false i.ieD)]
  case resumes =>
    rw [eq_advance_of_step h, State.advance_of_stall_eq hr hs]
    simp [State.stalled, State.stall, hw, hd]

/-! The order of the events of one cycle (R149) -/

/-- In a guarded frame the host's write is not honoured: the frame is busy and never stalled (R127, R148). -/
theorem State.Inv.ieWriteHonoured_of_guarded {s : State} (h : s.Inv) (hg : s.guardAct = true) :
    s.ieWriteHonoured s.input = false := by
  have hs : s.stall s.input = false := h.not_stalled_of_guarded hg
  simp [State.ieWriteHonoured, (h.guarded hg).1, hs]

/-- Settles O22: reset is the first arm of `Step`; a stalled cycle writes `IE` alone; guard entry comes after the host's
write; and a guarded frame is neither stalled nor open to that write. -/
theorem eventsOfOneCycleAreOrdered : Obligations.EventsOfOneCycleAreOrdered := by
  refine ⟨fun i j s hi hj => (if_pos hi).trans (if_pos hj).symm, fun s t hr hs h => ?stall,
    fun s t op b hf hg h => ?guardEntry, fun s hr hb hs => ?slotRule, fun _ => State.accepts_of_busy,
    fun s hinv _ hg => ⟨hinv.not_stalled_of_guarded hg, hinv.ieWriteHonoured_of_guarded hg⟩⟩
  case stall =>
    rw [eq_advance_of_step h, State.advance_of_stall_eq hr hs]
    exact ⟨rfl, rfl, rfl, fun hw => if_pos hw⟩
  case guardEntry => rw [eq_advance_of_step h, hf.advance_eq, hg, State.startFrame_ie, if_pos rfl]
  case slotRule => rw [step_eq_advance, State.advance_of_progress hr hs hb, exec_toInstr]

end Sys2Proof.Machine
end

section
/-! PROOFS of the family `70_reset_and_hazards`: the reset state and the reset cycle, what ends a frame early, and a
command held on the port through a frame (spec 70_reset_and_hazards.md R160 to R162, R174). -/

namespace Sys2Proof.Machine

/-! Reset (R160, R161) -/

/-- Settles O1: the registers by `ResetState`; the outputs are these registers and, with `SLOT` idle, `busy = 0`. -/
theorem resetStateHoldsTheSpecsValues : Obligations.ResetStateHoldsTheSpecsValues := by
  intro c s
  have hb : s.busy = false := s.not_busy_iff.2 rfl
  refine ⟨rfl, rfl, rfl, rfl, rfl, rfl, State.pad_of_undriven rfl, fun i => ?outputs⟩
  case outputs =>
    rw [State.outputs, State.cmdReady, State.stall_of_idle hb, hb]
    rfl

/-! What ends a frame (R105, R162) -/

/-- Outside reset a frame ends at the last cycle of STOP and in no other cycle (R105). -/
theorem State.Transition.busy_of_not_stopExit {s t : State} (h : s.Transition t) (hb : s.busy = true)
    (hlast : ¬ (s.slot = .stop ∧ s.cyc = 0)) : t.busy = true := by
  cases h with
  | stall _ _ ht | count _ _ _ ht => rw [ht]; exact hb
  | enter _ _ _ l hl ht => rw [ht]; exact State.busy_of_slotLevel hl
  | finish _ hc hsl _ => exact absurd ⟨hsl, hc⟩ hlast
  | init hi _ _ _ | start hi _ _ _ _ | idle hi _ _ _ _ => cases hb.symm.trans hi

/-- Settles O4: reset is the first arm of `Step`, and outside reset only the STOP exit ends a frame. -/
theorem resetCycleGivesResetState : Obligations.ResetCycleGivesResetState := by
  refine ⟨fun s hr => ⟨s.tick.toReset, ?reset, ?values⟩, fun s t hr hb hlast h => ?frame⟩
  case reset => rw [step_eq_advance, State.advance_of_reset hr]
  case values => exact ⟨rfl, rfl, rfl, rfl, rfl, State.pad_of_undriven rfl, rfl, rfl, rfl, rfl⟩
  case frame => exact (State.transition_of_step hr h).busy_of_not_stopExit hb hlast

/-! A command held through a frame (R174) -/

/-- Settles O51: the frame keeps the port closed in its `10 * N` cycles, and the first idle cycle accepts the word the
host still presents. -/
theorem heldCommandWaitsForTheFrame : Obligations.HeldCommandWaitsForTheFrame := by
  intro s op b w hn h hr hs hheld
  obtain ⟨hunstalled, _⟩ := frameDuration s op b hn h
  obtain ⟨hbusy, hidle⟩ := hunstalled (fun j hj => hr j (by omega)) hs
  refine ⟨fun j hj hj' => State.accepts_of_busy (hbusy j hj hj'), ?firstIdle⟩
  case firstIdle =>
    obtain ⟨hvalid, hword⟩ := hheld (10 * s.cfg.n + 1) (by omega) le_rfl
    rw [State.accepts_eq_some, State.stateAt_input, hword]
    exact ⟨hr _ (by omega), (State.not_busy_iff _).2 hidle, hvalid, rfl⟩

end Sys2Proof.Machine
end

section
/-! PROOFS of the family `other`: the round trips of the decoder, the width of `CYC` and elaboration, what one cycle
does to the registers, and the frames of a run (spec 00_scope.md, 10_state.md, 30_encoding.md and, for the frames,
41_bit_timing_fsm.md and 60_exceptions.md). -/

namespace Sys2Proof

/-! The fields of a word and of an operand, taken apart and put together (R70, R72) -/

@[simp] theorem guardOperand_guardByte (v : Bool) (x : BitVec 7) : guardOperand (guardByte v x) = v := by
  rw [guardOperand, guardByte, BitVec.getLsbD_append, if_pos Nat.one_pos]
  cases v <;> rfl

@[simp] theorem guardIgnored_guardByte (v : Bool) (x : BitVec 7) : guardIgnored (guardByte v x) = x :=
  BitVec.extractLsb'_append_eq_left

@[simp] theorem commandWord_fields (w : CommandWord) : commandWord (commandOp w) (commandOperand w) = w :=
  (BitVec.extractLsb'_append_extractLsb'_eq_extractLsb' rfl).trans BitVec.extractLsb'_eq_self

@[simp] theorem guardByte_fields (x : Byte) : guardByte (guardOperand x) (guardIgnored x) = x := by
  have hbit : BitVec.ofBool (guardOperand x) = x.extractLsb' 0 1 := by
    ext i hi
    simp [guardOperand, Nat.lt_one_iff.1 hi]
  rw [guardByte, hbit]
  exact (BitVec.extractLsb'_append_extractLsb'_eq_extractLsb' rfl).trans BitVec.extractLsb'_eq_self

/-- Settles O54: the opcode selects the row and the operand comes back whole, that of SET_GUARD from its two fields. -/
theorem decodeOfEncodeIsTheInstruction : Obligations.DecodeOfEncodeIsTheInstruction := by
  intro i
  cases i with
  | reserved0 | init | tx | txGuarded | txAuto | setGuard | reserved6 | reserved7 =>
    simp [encode, decode, decodeCommand]
  | pinHold | pinSetLow | pinSetHigh | pinInit => rfl

/-- The encoding of a command word's instruction has the word's opcode and operand (R81). -/
theorem encode_decodeCommand (w : CommandWord) :
    encode (decodeCommand w) = .command (commandWord (commandOp w) (commandOperand w)) := by
  unfold decodeCommand
  generalize commandOperand w = x
  obtain ⟨op, hop⟩ : ∃ op : Fin 8, commandOp w = .ofFin op := ⟨_, rfl⟩
  rw [hop]
  fin_cases op <;> simp [encode]

/-- Settles O55: the operand's fields, put together again, are the operand, and opcode and operand are the word. -/
theorem encodeOfDecodeIsTheWord : Obligations.EncodeOfDecodeIsTheWord := by
  intro e
  cases e with
  | command w => rw [decode, encode_decodeCommand, commandWord_fields]
  | pinOp c => revert c; decide

/-- A command word is the operand with the opcode shifted into place (R81). -/
theorem commandWord_eq_or (op : BitVec 3) (x : Byte) :
    commandWord op x = op.setWidth 11 <<< 8 ||| x.setWidth 11 := by
  calc commandWord op x
    _ = (op ++ x).setWidth 11 := (BitVec.setWidth_eq _).symm
    _ = op.setWidth 11 <<< 8 ||| x.setWidth 11 := BitVec.setWidth_append_eq_shiftLeft_setWidth_or

/-- Settles O56: the opcode shifted into place is the constant of the line. -/
theorem commandsHaveTheirListedWords : Obligations.CommandsHaveTheirListedWords := by
  refine ⟨rfl, fun b => ?tx, by decide⟩
  case tx => simp [encode, commandWord_eq_or]

/-- Settles O57: each word by evaluation of the opcode map. -/
theorem writtenWordsDecodeAsTheSpecLists : Obligations.WrittenWordsDecodeAsTheSpecLists := by
  unfold Obligations.WrittenWordsDecodeAsTheSpecLists
  decide

/-! Elaboration and the width of `CYC` (R10, R12) -/

namespace Machine

/-- Settles O3: `W` holds `N - 1`, and a width that holds `N - 1` is at least its binary length. -/
theorem cycWidthIsTheLeastThatHoldsN : Obligations.CycWidthIsTheLeastThatHoldsN := by
  intro c
  refine ⟨Nat.succ_pos _, ?holds, fun w hw hle => ?least⟩
  case holds =>
    have := period_sub_one_lt_two_pow_cycWidth c
    omega
  case least =>
    by_cases h0 : c.n - 1 = 0
    · simpa [Config.cycWidth, h0] using hw
    · have hlt : c.n - 1 < 2 ^ w := by omega
      exact (Nat.log2_lt h0).2 hlt

/-- Settles O2: each of the three checks refuses a configuration that fails it, and a block is built after all three. -/
theorem elaborationBuildsExactlyValidConfigurations : Obligations.ElaborationBuildsExactlyValidConfigurations := by
  intro c s
  by_cases hclk : c.clkHz ∈ c.clockSet
  case neg => simp [elaborateBlock, hclk]
  by_cases htab : profileLookup c.profileTable c.clkHz c.profile = some (c.baud, c.n)
  case neg => simp [elaborateBlock, hclk, htab]
  by_cases hn : c.n < 2
  case pos => simp [elaborateBlock, hclk, htab, hn]
  simp [elaborateBlock, hclk, htab, hn, eq_comm, Nat.not_lt.1 hn]

/-- The block of `State.reset` has a configuration that R10 lets exist (log 1). -/
theorem valid_build : Config.build.valid = true := by
  have hadm : Config.build.admissible = true := by
    unfold Config.build
    split
    · assumption
    · decide
  exact (Bool.and_eq_true_iff.1 hadm).1

/-- A valid configuration builds its block (R10). -/
theorem elaborateBlock_of_valid {c : Config} (h : c.valid = true) : elaborateBlock c = .ok (State.resetOf c) := by
  simp only [Config.valid, Bool.and_eq_true, decide_eq_true_eq, and_assoc] at h
  exact (elaborationBuildsExactlyValidConfigurations c _).2 ⟨h, rfl⟩

/-- Settles O36: `ResetState` of a valid configuration meets the invariant, and that of `State.reset` is valid. -/
theorem invariantHoldsAtReset : Obligations.InvariantHoldsAtReset :=
  ⟨fun _ l n h => State.inv_fromReset h l n, State.inv_fromReset valid_build [] 0, elaborateBlock_of_valid valid_build⟩

/-! One step (R41, R130, R135) -/

/-- Settles O37: the invariant is kept by a reset cycle and by every other kind of cycle. -/
theorem stepKeepsTheInvariant : Obligations.StepKeepsTheInvariant := fun _ _ h hst => h.of_step hst

/-- Settles O17: a word is accepted in an idle cycle, which dispatches it after the host's write of `IE`. -/
theorem stepRunsTheAcceptedCommand : Obligations.StepRunsTheAcceptedCommand := by
  intro s w h
  obtain ⟨hr, hb, hv, rfl⟩ := State.acceptedWord_eq_some.1 h
  rw [step, clockEdge_of_idle (s := s.tick) hb, if_neg (by simp [hr]), if_pos hv]
  rfl

/-- Settles O18: the slot rule is that of the step's order of events, and the other cycles write `IE` at most, as
PIN_HOLD does on the state after the host's write. -/
theorem stepRunsTheIssuedPinOperation : Obligations.StepRunsTheIssuedPinOperation := by
  obtain ⟨_, _, _, hslotRule, _⟩ := eventsOfOneCycleAreOrdered
  refine ⟨fun s hr hb hs => ⟨hslotRule s hr hb hs, State.issuedPinOp_of_progress hr hs hb⟩, fun s hr h => ?hold⟩
  case hold =>
    have hadv : s.advance = s.tick.hostIeWrite s.input := by
      rcases h with hs | ⟨hb, hv⟩
      · exact State.advance_of_stall hr hs
      · rw [State.advance_of_idle hr hb, hv]
        rfl
    rw [step_eq_advance, hadv]
    rfl

/-- A command writes the pin registers as the operation it issues does (R132). -/
theorem afterCommand_pin (i : Instr) (s : State) :
    (afterCommand i s).pinLevel = (s.pinOp (commandPinOp i)).pinLevel ∧
      (afterCommand i s).pinDir = (s.pinOp (commandPinOp i)).pinDir := by
  cases i <;> exact ⟨rfl, rfl⟩

/-- What a pin operation makes of the pin registers depends on nothing but them (R90 to R93). -/
theorem State.pinOp_pin_congr {s t : State} (hl : s.pinLevel = t.pinLevel) (hd : s.pinDir = t.pinDir) (p : PinOp) :
    (s.pinOp p).pinLevel = (t.pinOp p).pinLevel ∧ (s.pinOp p).pinDir = (t.pinOp p).pinDir := by
  cases p with
  | hold => exact ⟨hl, hd⟩
  | setLow | setHigh => exact ⟨rfl, hd⟩
  | init => exact ⟨rfl, rfl⟩

/-- Outside reset the pin registers become what the operation issued makes of them (R41). -/
theorem State.advance_pin {s : State} (hr : s.inReset = false) :
    s.advance.pinLevel = (s.pinOp (s.issuedPinOp s.input)).pinLevel ∧
      s.advance.pinDir = (s.pinOp (s.issuedPinOp s.input)).pinDir := by
  cases hb : s.busy with
  | true =>
    cases hs : s.stalled with
    | true =>
      rw [State.advance_of_stall hr hs, State.issuedPinOp_of_stall hs]
      exact ⟨rfl, rfl⟩
    | false =>
      rw [State.advance_of_progress hr hs hb, State.issuedPinOp_of_progress hr hs hb]
      exact State.pinOp_pin_congr (by simp) (by simp) _
  | false =>
    rw [State.advance_of_idle hr hb, State.issuedPinOp_of_idle hr hb]
    split
    · obtain ⟨hl, hd⟩ := afterCommand_pin (decodeCommand s.input.cmd) (s.tick.hostIeWrite s.input)
      rw [hl, hd]
      exact State.pinOp_pin_congr (by simp) (by simp) _
    · exact ⟨rfl, rfl⟩

/-- Settles O15: the pin registers after the step are those after the issued operation, in each of its four cases. -/
theorem pinRegistersFollowTheIssuedOperation : Obligations.PinRegistersFollowTheIssuedOperation := by
  intro s t hr h
  obtain ⟨hl, hd⟩ := State.advance_pin hr
  rw [eq_advance_of_step h, hl, hd]
  refine ⟨fun hp => ?_, fun hp => ?_, fun hp => ?_, fun hp => ?_⟩ <;> rw [hp] <;> exact ⟨rfl, rfl⟩

/-- The host's write changes `IE` only where it is honoured, to the value written (R148). -/
theorem State.hostIeWrite_ie_cases (i : Inputs) (s : State) :
    (s.hostIeWrite i).ie = s.ie ∨ (s.ieWriteHonoured i = true ∧ (s.hostIeWrite i).ie = i.ieD) := by
  cases hw : s.ieWriteHonoured i <;> simp [hw]

/-- Settles O24: of the kinds of cycle outside reset, those with a host write, the guarded start of a frame and the end
of a guarded one change `IE`. -/
theorem ieHasFourWriters : Obligations.IeHasFourWriters := by
  intro s t h hne
  cases hr : s.inReset with
  | true => exact .inl rfl
  | false =>
  have hhost : t.ie = (s.tick.hostIeWrite s.input).ie → s.ieWriteHonoured s.input = true ∧ t.ie = s.input.ieD := by
    intro ht
    rcases s.tick.hostIeWrite_ie_cases s.input with hk | ⟨hw, hd⟩
    · exact absurd (ht.trans hk) hne
    · exact ⟨hw, ht.trans hd⟩
  right
  cases State.transition_of_step hr h with
  | stall _ _ ht | init _ _ _ ht | idle _ _ _ _ ht => exact .inl (hhost (by simp [ht]))
  | count _ _ _ ht | enter _ _ _ _ _ ht => exact absurd (by simp [ht]) hne
  | start _ op b ha ht =>
    cases hg : guardSelect op s with
    | true => exact .inr (.inl ⟨by simp [ht, hg], op, b, ha, hg⟩)
    | false => exact .inl (hhost (by simp [ht, hg]))
  | finish _ hc hsl ht =>
    cases hg : s.guardAct with
    | true => exact .inr (.inr ⟨by simp [ht, hg], hsl, hc, rfl, by simp [ht]⟩)
    | false => exact absurd (by simp [ht, hg]) hne

/-- Settles O32: of the kinds of cycle of a frame only its end writes one of the four registers, `GUARD_ACT`. -/
theorem frameKeepsItsRegisters : Obligations.FrameKeepsItsRegisters := by
  intro s t hr hb h
  have ht := State.transition_of_step hr h
  have ha := State.accepts_of_busy hb
  have hdir : t.pinDir = s.pinDir := Bool.eq_iff_iff.2 (by simp [ht.pinDir_iff, ha])
  refine ⟨ht.txd_of_busy hb, guardEn_of_step hr (by simp [ha]) h, hdir, ?guardAct⟩
  case guardAct =>
    cases ht with
    | stall _ _ ht | count _ _ _ ht | enter _ _ _ _ _ ht => exact .inl (by simp [ht])
    | finish _ hc hsl ht => exact .inr ⟨by simp [ht], hsl, hc⟩
    | init hi _ _ _ | start hi _ _ _ _ | idle hi _ _ _ _ => cases hb.symm.trans hi

/-! `TXD` and `CYC` while idle (R22, R23, U3) -/

/-- The two states are the same, but for what `TXD` and `CYC` hold where they are idle. -/
def State.SameButUnread (s t : State) : Prop :=
  t = s ∨ (s.slot = .idle ∧ ∃ (x : Byte) (y : Nat), t = { s with txd := x, cyc := y })

namespace State.SameButUnread

variable {s t : State}

/-- Neither the outputs nor the pad read the two registers (R95, R136). -/
theorem outputs_pad (h : s.SameButUnread t) (i : Inputs) : t.outputs i = s.outputs i ∧ t.pad = s.pad := by
  rcases h with rfl | ⟨_, _, _, rfl⟩ <;> exact ⟨rfl, rfl⟩

/-- The start of a frame overwrites both registers, and no other command reads them (R100, R132). -/
theorem afterCommand (hi : s.slot = .idle) (x : Byte) (y : Nat) {i : Instr} (hf : i.format = .h) :
    (Machine.afterCommand i s).SameButUnread (Machine.afterCommand i { s with txd := x, cyc := y }) := by
  cases i with
  | tx | txGuarded | txAuto => exact .inl rfl
  | init | setGuard | reserved0 | reserved6 | reserved7 => exact .inr ⟨hi, x, y, rfl⟩
  | pinHold | pinSetLow | pinSetHigh | pinInit => cases hf

/-- An idle cycle resets both states to the same one, or runs the same command on both, if any (R135). -/
theorem advance (h : s.SameButUnread t) : s.advance.SameButUnread t.advance := by
  rcases h with rfl | ⟨hi, x, y, rfl⟩
  · exact .inl rfl
  · have hb : s.busy = false := s.not_busy_iff.2 hi
    cases hr : s.inReset with
    | true =>
      rw [State.advance_of_reset hr, State.advance_of_reset (s := { s with txd := x, cyc := y }) hr]
      exact .inl rfl
    | false =>
      rw [State.advance_of_idle hr hb, State.advance_of_idle (s := { s with txd := x, cyc := y }) hr hb]
      change State.SameButUnread _ (if s.input.cmdValid then _ else _)
      split
      · exact afterCommand (s := s.tick.hostIeWrite s.input) hi x y (decodeCommand_format _)
      · exact .inr ⟨hi, x, y, rfl⟩

theorem stateAt (h : s.SameButUnread t) : ∀ k, (s.stateAt k).SameButUnread (t.stateAt k)
  | 0 => h
  | k + 1 => (h.stateAt k).advance

end State.SameButUnread

/-- Settles O46: two runs that differ in the two registers while idle go on like that until a frame starts or the block
is reset, and are the same from then on. -/
theorem idleTxdAndCycAreUnread : Obligations.IdleTxdAndCycAreUnread := by
  intro s x y k hi
  have h : s.SameButUnread { s with txd := x, cyc := y } := .inr ⟨hi, x, y, rfl⟩
  exact (h.stateAt k).outputs_pad _

/-! Stalled stretches (R147, R173, R175) -/

/-- A stalled cycle in which the host writes no 0 to `IE` changes no register (R146, R148). -/
theorem State.advance_of_stall_keeping_ie {s : State} (hr : s.inReset = false) (hs : s.stalled = true)
    (hw : s.input.ieWe = true → s.input.ieD = true) :
    s.advance = { s with inputs := s.inputs.tail, cycle := s.cycle + 1 } := by
  have hie : (if s.input.ieWe then s.input.ieD else s.ie) = s.ie := by
    obtain ⟨_, _, hie⟩ := (State.stall_iff _ _).1 hs
    split
    · next hwe => rw [hw hwe, hie]
    · rfl
  rw [State.advance_of_stall_eq hr hs, hie]

/-- While `irq` and `IE` stay 1 a frame does not move (R147). -/
theorem State.stateAt_of_stalled_for_ever {s : State} (hb : s.busy = true) (hie : s.ie = true) {k : Nat}
    (hin : ∀ j < k, (s.inputAt j).rst = false ∧ (s.inputAt j).irq = true ∧
      ((s.inputAt j).ieWe = true → (s.inputAt j).ieD = true)) :
    s.stateAt k = { s with inputs := s.inputs.drop k, cycle := s.cycle + k } := by
  induction k with
  | zero => rfl
  | succ k ih =>
    have hk := ih fun j hj => hin j (hj.trans k.lt_succ_self)
    obtain ⟨hrst, hirq, hw⟩ := hin k k.lt_succ_self
    rw [← State.stateAt_input] at hrst hirq hw
    have hs : (s.stateAt k).stalled = true := by
      refine (State.stall_iff _ _).2 ⟨?_, hirq, ?_⟩ <;> rw [hk]
      · exact hb
      · exact hie
    rw [State.stateAt, State.advance_of_stall_keeping_ie hrst hs hw, hk]
    simp [Nat.add_assoc]

/-- After any number of stalled cycles every register but `IE` is as it was (R146). -/
theorem State.stateAt_of_stalled {s : State} {k : Nat}
    (h : ∀ j < k, (s.stateAt j).inReset = false ∧ (s.stateAt j).stalled = true) :
    ∃ ie, s.stateAt k = { s with ie := ie, inputs := s.inputs.drop k, cycle := s.cycle + k } := by
  induction k with
  | zero => exact ⟨s.ie, rfl⟩
  | succ k ih =>
    obtain ⟨ie, hk⟩ := ih fun j hj => h j (hj.trans k.lt_succ_self)
    obtain ⟨hr, hs⟩ := h k k.lt_succ_self
    refine ⟨(s.stateAt (k + 1)).ie, ?_⟩
    rw [State.stateAt, State.advance_of_stall_eq hr hs, hk]
    simp [Nat.add_assoc]

/-- Settles O53: each cycle of either stretch is stalled, so that by induction nothing moves but, in the second,
`IE`. -/
theorem stalledFrameWaitsForEver : Obligations.StalledFrameWaitsForEver := by
  refine ⟨fun s k hb hie hin => ⟨State.stateAt_of_stalled_for_ever hb hie hin, fun j hj => ?closed⟩, fun s k h => ?kept⟩
  case closed =>
    apply State.accepts_of_busy
    rw [State.stateAt_of_stalled_for_ever hb hie fun i hi => hin i (hi.trans hj)]
    exact hb
  case kept =>
    obtain ⟨ie, hk⟩ := State.stateAt_of_stalled h
    rw [hk]
    exact ⟨rfl, rfl, rfl, rfl, rfl, rfl, rfl⟩

/-! The frames of a run (R100 to R105, R176) -/

/-- In its slot position `p` leaves the cycles that the slot's full count has after `p % N` of them (R101). -/
theorem State.AtPosition.cyc_eq {s : State} {p : Nat} (h : s.AtPosition p) (hi : s.Inv) :
    s.cyc = s.cfg.n - 1 - p % s.cfg.n := by
  have hcount := h.count
  rw [h.code_eq hi, Nat.add_one_mul] at hcount
  have hdiv := Nat.div_add_mod' p s.cfg.n
  omega

/-- Settles O39: the frame is in flight at the position that counts its unstalled cycles, which gives slot, level and
count. -/
theorem framePositionCountsUnstalledCycles : Obligations.FramePositionCountsUnstalledCycles := by
  intro s op b k hn h hk hr hp
  obtain ⟨hpos, htxd⟩ := h.inFlight hn hk hr hp
  obtain ⟨hcode, hl⟩ := h.waveform hn hk hr hp
  obtain ⟨p, rfl⟩ := Nat.exists_eq_add_of_le' hk
  have hcyc := hpos.cyc_eq (h.inv_stateAt hn p)
  rw [State.stateAt_cfg] at hcyc
  exact ⟨hcode, hl, hcyc, htxd⟩

/-- Settles O50: as long as not all of the frame's `10 * N` positions are over it is in flight and the port closed, so
that `10 * N` of the cycles up to the second acceptance are unstalled. -/
theorem framesNeverOverlap : Obligations.FramesNeverOverlap := by
  intro s op op' b b' k hn h hk hr h'
  obtain ⟨_, hidle, _⟩ := State.accepts_eq_some.1 h'
  have hp : 10 * s.cfg.n ≤ s.progress k := by
    by_contra hlt
    obtain ⟨hpos, _⟩ := h.inFlight hn hk hr (Nat.not_le.1 hlt)
    cases hpos.busy.symm.trans hidle
  have hcount := s.progress_add_stallCount hk
  omega

end Machine
end Sys2Proof
end
